-- ==== Sys2Proof/Word.lean ====
section
/-! DEFINITION. The two word types of the machine and the plain splitting and joining of a 16-bit word
(00_scope R7). -/

namespace Sys2Proof

/-- One byte: the data width of the machine (00_scope R5). -/
abbrev Byte := BitVec 8

/-- A 16-bit CPU or PPU address (00_scope R5). -/
abbrev Addr := BitVec 16

/-- `hi(w) = w[15:8]` (00_scope R7). -/
def hiByte (w : Addr) : Byte := w.extractLsb' 8 8

/-- `lo(w) = w[7:0]` (00_scope R7). -/
def loByte (w : Addr) : Byte := w.extractLsb' 0 8

/-- `(hi << 8) | lo`: the 16-bit word of a high and a low byte (00_scope R7). -/
def joinBytes (hi lo : Byte) : Addr := hi ++ lo

end Sys2Proof
end

