-- ==== Sys2Proof/Config.lean ====
section
/-! DEFINITION. What is fixed for a run (00_scope R5, R6) and the free values, which have no body: the oracles
of 20_memory R78 and the two open parameters' draws. Each is applied to the counter of draws in the state,
so that nothing can be proved of one draw and every draw is a fresh one (notes/assumptions/4.md). -/

namespace Sys2Proof

/-- Power-on A, X and Y: the default of the parameters `A0`, `X0`, `Y0` (00_scope R6, 10_state R57). -/
def Config.axy0 : Byte := 0x00

/-- Power-on stack pointer: the default of `S0` (00_scope R6, 10_state R57). -/
def Config.s0 : Byte := 0xFD

/-- Power-on pc, before `CPU.reset()`: the default of `PC0` (00_scope R6, 10_state R57). -/
def Config.pc0 : Addr := 0x0000

/-- CPU cycles charged when a DMA is performed: the default of `DMA_STALL` (00_scope R6, 49_dma_sequencer R305). -/
def Config.dmaStall : Nat := 514

/-- The timing parameters of 00_scope R6, as data: `BaseCycles` and `PagePenalty` by opcode byte, and `DMA_STALL`. -/
structure Timing where
  base     : List Nat
  penalty  : List Bool
  dmaStall : Nat
  deriving DecidableEq, Repr

/-- Dots of one scanline (00_scope R5). -/
def Config.dotsPerScanline : Nat := 341

/-- PPU dots for one CPU cycle (00_scope R5). -/
def Config.dotsPerCycle : Nat := 3

/-- The NMI vector (20_memory R77). -/
def Config.nmiVector : Addr := 0xFFFA

/-- The reset vector (20_memory R77). -/
def Config.resetVector : Addr := 0xFFFC

/-- The vector shared by IRQ and BRK (20_memory R77). -/
def Config.irqVector : Addr := 0xFFFE

/-- The oracle `AudioStatusRead`: the byte a read of 0x4015 draws (20_memory R71). A free value. -/
opaque Config.audioStatus : Nat → Byte

/-- The oracle `InputRead`: the bit a read of 0x4016 draws (20_memory R72). A free value. -/
opaque Config.inputBit : Nat → Bool

/-- The byte a read of PPU port 0, 1, 3, 5 or 6 draws (47_ppu_ports R258). A free value. -/
opaque Config.openPort : Nat → Byte

/-- The instance `any` of `Sprite0HitSet`: whether the hit bit is set at one scanline advance
(48_ppu_rendering R278). A free value. -/
opaque Config.sprite0Hit : Nat → Bool

/-- The `ExternalIrq` move before one machine step, when it is unconstrained: no move, or the flag set to the
given value (60_exceptions R327). A free value. -/
opaque Config.externalIrq : Nat → Option Bool

end Sys2Proof
end

