-- ==== Sys2Proof/Syntax.lean ====
section
/-! DEFINITION. The instructions as syntax: one constructor per mnemonic of spec/opcode_table.json, with the
operand form that tells the mnemonic's rows apart (30_encoding R100 to R121, notes/assumptions/11.md). -/

namespace Sys2Proof

/-- The thirteen addressing modes (30_encoding R104 to R116). -/
inductive Mode where
  | implied | accumulator | immediate
  | zeropage | zeropageX | zeropageY
  | absolute | absoluteX | absoluteY
  | indirect | indirectX | indirectY | relative
  deriving DecidableEq, Repr

/-- A memory operand: the modes whose effective address is a data address, with their operand bytes. -/
inductive AddrMode where
  | zp   (z : Byte)   -- zeropage, R107
  | zpX  (z : Byte)   -- zeropage,X, R108
  | zpY  (z : Byte)   -- zeropage,Y, R109
  | abs  (w : Addr)   -- absolute, R110
  | absX (w : Addr)   -- absolute,X, R111
  | absY (w : Addr)   -- absolute,Y, R112
  | indX (z : Byte)   -- (zeropage,X), R114
  | indY (z : Byte)   -- (zeropage),Y, R115
  deriving DecidableEq, Repr

/-- The operand of an instruction that reads one byte: immediate data or memory (30_encoding R117). -/
inductive Operand where
  | imm (v : Byte)
  | mem (m : AddrMode)
  deriving DecidableEq, Repr

/-- The operand of a shift or rotate: the accumulator or memory (43_shift_rotate R184). -/
inductive ShiftOperand where
  | acc
  | mem (m : AddrMode)
  deriving DecidableEq, Repr

/-- The target of JMP: absolute or through a pointer (44_control_flow R190, R191). -/
inductive JumpOperand where
  | abs (w : Addr)
  | ind (w : Addr)
  deriving DecidableEq, Repr

/-- The operand of an undocumented NOP form (46_undocumented R221). -/
inductive NopOperand where
  | implied
  | imm (v : Byte)
  | mem (m : AddrMode)
  deriving DecidableEq, Repr

/-- The mode of a memory operand. -/
def AddrMode.mode : AddrMode → Mode
  | .zp _ => .zeropage
  | .zpX _ => .zeropageX
  | .zpY _ => .zeropageY
  | .abs _ => .absolute
  | .absX _ => .absoluteX
  | .absY _ => .absoluteY
  | .indX _ => .indirectX
  | .indY _ => .indirectY

/-- The mode of a reading operand. -/
def Operand.mode : Operand → Mode
  | .imm _ => .immediate
  | .mem m => m.mode

/-- The mode of a shift's operand. -/
def ShiftOperand.mode : ShiftOperand → Mode
  | .acc => .accumulator
  | .mem m => m.mode

/-- The mode of a jump's operand. -/
def JumpOperand.mode : JumpOperand → Mode
  | .abs _ => .absolute
  | .ind _ => .indirect

/-- The mode of an undocumented NOP's operand. -/
def NopOperand.mode : NopOperand → Mode
  | .implied => .implied
  | .imm _ => .immediate
  | .mem m => m.mode

/-- The instructions. A branch carries its displacement byte (30_encoding R116), an undocumented NOP the opcode
byte that tells its rows of one mode apart, an illegal row its opcode byte (46_undocumented R231). -/
inductive Instr where
  -- load and store, 40_load_store
  | lda (o : Operand)
  | ldx (o : Operand)
  | ldy (o : Operand)
  | sta (m : AddrMode)
  | stx (m : AddrMode)
  | sty (m : AddrMode)
  -- transfer and stack, 41_transfer_stack
  | tax
  | tay
  | txa
  | tya
  | tsx
  | txs
  | pha
  | php
  | pla
  | plp
  -- arithmetic and logic, 42_arithmetic_logic
  | adc (o : Operand)
  | sbc (o : Operand)
  | and (o : Operand)
  | ora (o : Operand)
  | eor (o : Operand)
  | bit (m : AddrMode)
  | cmp (o : Operand)
  | cpx (o : Operand)
  | cpy (o : Operand)
  | inc (m : AddrMode)
  | dec (m : AddrMode)
  | inx
  | iny
  | dex
  | dey
  -- shift and rotate, 43_shift_rotate
  | asl (o : ShiftOperand)
  | lsr (o : ShiftOperand)
  | rol (o : ShiftOperand)
  | ror (o : ShiftOperand)
  -- control transfer, 44_control_flow
  | jmp (t : JumpOperand)
  | jsr (w : Addr)
  | rts
  | rti
  | brk
  | bcc (d : Byte)
  | bcs (d : Byte)
  | beq (d : Byte)
  | bne (d : Byte)
  | bmi (d : Byte)
  | bpl (d : Byte)
  | bvc (d : Byte)
  | bvs (d : Byte)
  -- flags and NOP, 45_flags_nop
  | clc
  | sec
  | cli
  | sei
  | cld
  | sed
  | clv
  | nop
  -- undocumented, 46_undocumented
  | nopU (op : Byte) (o : NopOperand)
  | lax (m : AddrMode)
  | sax (m : AddrMode)
  | sbcU (v : Byte)
  | dcp (m : AddrMode)
  | isb (m : AddrMode)
  | slo (m : AddrMode)
  | rla (m : AddrMode)
  | sre (m : AddrMode)
  | rra (m : AddrMode)
  -- the bytes with no table entry, 46_undocumented R231
  | illegal (op : Byte)
  deriving DecidableEq, Repr

end Sys2Proof
end

