-- ==== Sys2Proof/WellFormed.lean ====
section
/-! DEFINITION. Which instruction terms have a row in the opcode table: for each mnemonic the addressing modes its
rule lists under "Encoding". -/

namespace Sys2Proof

/-- The eight modes of LDA, ADC, SBC, AND, ORA, EOR and CMP (40_load_store R131, 42_arithmetic_logic R161 to R167). -/
def readModes : List Mode :=
  [.immediate, .zeropage, .zeropageX, .absolute, .absoluteX, .absoluteY, .indirectX, .indirectY]

/-- The seven modes of the undocumented read-modify-write instructions and of STA
(40_load_store R134, 46_undocumented R225 to R230). -/
def storeModes : List Mode :=
  [.zeropage, .zeropageX, .absolute, .absoluteX, .absoluteY, .indirectX, .indirectY]

/-- The four memory modes of INC, DEC and the shifts (42_arithmetic_logic R170, 43_shift_rotate R184). -/
def rmwModes : List Mode := [.zeropage, .zeropageX, .absolute, .absoluteX]

/-- The opcode bytes of the undocumented NOP forms of one mode (46_undocumented R221). -/
def nopOpcodes : Mode → List Byte
  | .implied => [0x1A, 0x3A, 0x5A, 0x7A, 0xDA, 0xFA]
  | .immediate => [0x80, 0x82, 0x89, 0xC2, 0xE2]
  | .zeropage => [0x04, 0x44, 0x64]
  | .zeropageX => [0x14, 0x34, 0x54, 0x74, 0xD4, 0xF4]
  | .absolute => [0x0C]
  | .absoluteX => [0x1C, 0x3C, 0x5C, 0x7C, 0xDC, 0xFC]
  | _ => []

/-- The 25 bytes with no table entry (46_undocumented R231). -/
def illegalOpcodes : List Byte :=
  [0x02, 0x12, 0x22, 0x32, 0x42, 0x52, 0x62, 0x72, 0x92, 0xB2, 0xD2, 0xF2, 0x0B, 0x2B, 0x4B, 0x6B, 0x8B, 0x93,
   0x9B, 0x9C, 0x9E, 0x9F, 0xAB, 0xBB, 0xCB]

/-- The instruction is a row of the opcode table: its operand has a mode that its rule encodes. -/
def Instr.wellFormed : Instr → Bool
  | .lda o | .adc o | .sbc o | .and o | .ora o | .eor o | .cmp o => readModes.contains o.mode
  | .ldx o => [Mode.immediate, .zeropage, .zeropageY, .absolute, .absoluteY].contains o.mode
  | .ldy o => [Mode.immediate, .zeropage, .zeropageX, .absolute, .absoluteX].contains o.mode
  | .cpx o | .cpy o => [Mode.immediate, .zeropage, .absolute].contains o.mode
  | .sta m | .dcp m | .isb m | .slo m | .rla m | .sre m | .rra m => storeModes.contains m.mode
  | .stx m => [Mode.zeropage, .zeropageY, .absolute].contains m.mode
  | .sty m => [Mode.zeropage, .zeropageX, .absolute].contains m.mode
  | .bit m => [Mode.zeropage, .absolute].contains m.mode
  | .inc m | .dec m => rmwModes.contains m.mode
  | .asl o | .lsr o | .rol o | .ror o => (Mode.accumulator :: rmwModes).contains o.mode
  | .nopU op o => (nopOpcodes o.mode).contains op
  | .lax m =>
    [Mode.zeropage, .zeropageY, .absolute, .absoluteY, .indirectX, .indirectY].contains m.mode
  | .sax m => [Mode.zeropage, .zeropageY, .absolute, .indirectX].contains m.mode
  | .illegal op => illegalOpcodes.contains op
  | .tax | .tay | .txa | .tya | .tsx | .txs | .pha | .php | .pla | .plp => true
  | .inx | .iny | .dex | .dey => true
  | .jmp _ | .jsr _ | .rts | .rti | .brk => true
  | .bcc _ | .bcs _ | .beq _ | .bne _ | .bmi _ | .bpl _ | .bvc _ | .bvs _ => true
  | .clc | .sec | .cli | .sei | .cld | .sed | .clv | .nop => true
  | .sbcU _ => true

end Sys2Proof
end

