-- ==== Sys2Proof/Decode.lean ====
section
/-! DEFINITION. The opcode table (30_encoding R121), the decoder read from it, total on bytes (R100, R102, R123),
and the encoder, written from the "Encoding" lines of the instruction rules of files 40 to 46. -/

namespace Sys2Proof

/-- One row of the opcode table: the instruction as a function of operand bytes 1 and 2, how many operand bytes it
has, its base cycle count and whether a page cross adds a cycle (30_encoding R100, R121). -/
structure OpRow where
  instr    : Byte → Byte → Instr
  operands : Nat
  base     : Nat
  penalty  : Bool

/-- A one-byte row: implied or accumulator mode (format F1). -/
def impliedRow (i : Instr) (base : Nat) : OpRow := ⟨fun _ _ => i, 0, base, false⟩

/-- A two-byte row whose operand byte is used as it stands: immediate or relative mode (format F2). -/
def byteRow (c : Byte → Instr) (base : Nat) (penalty : Bool := false) : OpRow := ⟨fun b _ => c b, 1, base, penalty⟩

/-- A three-byte row whose operand is a word, low byte first (format F3, R110). -/
def wordRow (c : Addr → Instr) (base : Nat) (penalty : Bool := false) : OpRow :=
  ⟨fun lo hi => c (joinBytes hi lo), 2, base, penalty⟩

/-- A row in the mode zeropage, R107. -/
def zpRow (c : AddrMode → Instr) (base : Nat) : OpRow := byteRow (fun z => c (.zp z)) base
/-- A row in the mode zeropage,X, R108. -/
def zpXRow (c : AddrMode → Instr) (base : Nat) : OpRow := byteRow (fun z => c (.zpX z)) base
/-- A row in the mode zeropage,Y, R109. -/
def zpYRow (c : AddrMode → Instr) (base : Nat) : OpRow := byteRow (fun z => c (.zpY z)) base
/-- A row in the mode (zeropage,X), R114. -/
def indXRow (c : AddrMode → Instr) (base : Nat) : OpRow := byteRow (fun z => c (.indX z)) base
/-- A row in the mode (zeropage),Y, R115. -/
def indYRow (c : AddrMode → Instr) (base : Nat) (penalty : Bool := false) : OpRow :=
  byteRow (fun z => c (.indY z)) base penalty
/-- A row in the mode absolute, R110. -/
def absRow (c : AddrMode → Instr) (base : Nat) : OpRow := wordRow (fun w => c (.abs w)) base
/-- A row in the mode absolute,X, R111. -/
def absXRow (c : AddrMode → Instr) (base : Nat) (penalty : Bool := false) : OpRow :=
  wordRow (fun w => c (.absX w)) base penalty
/-- A row in the mode absolute,Y, R112. -/
def absYRow (c : AddrMode → Instr) (base : Nat) (penalty : Bool := false) : OpRow :=
  wordRow (fun w => c (.absY w)) base penalty

/-- A byte with no table entry: it has no operand bytes, since the fault ends the run before any is fetched
(30_encoding R122, R123). -/
def illegalRow (op : Byte) : OpRow := impliedRow (.illegal op) 0

/-- Opcode bytes 0x00 to 0x0F (30_encoding R121). -/
def opcodeRow0 : List OpRow :=
  [impliedRow .brk 7,
   indXRow (fun m => .ora (.mem m)) 6,
   illegalRow 0x02,
   indXRow .slo 8,
   zpRow (fun m => .nopU 0x04 (.mem m)) 3,
   zpRow (fun m => .ora (.mem m)) 3,
   zpRow (fun m => .asl (.mem m)) 5,
   zpRow .slo 5,
   impliedRow .php 3,
   byteRow (fun v => .ora (.imm v)) 2,
   impliedRow (.asl .acc) 2,
   illegalRow 0x0B,
   absRow (fun m => .nopU 0x0C (.mem m)) 4,
   absRow (fun m => .ora (.mem m)) 4,
   absRow (fun m => .asl (.mem m)) 6,
   absRow .slo 6]

/-- Opcode bytes 0x10 to 0x1F (30_encoding R121). -/
def opcodeRow1 : List OpRow :=
  [byteRow .bpl 2 true,
   indYRow (fun m => .ora (.mem m)) 5 true,
   illegalRow 0x12,
   indYRow .slo 8,
   zpXRow (fun m => .nopU 0x14 (.mem m)) 4,
   zpXRow (fun m => .ora (.mem m)) 4,
   zpXRow (fun m => .asl (.mem m)) 6,
   zpXRow .slo 6,
   impliedRow .clc 2,
   absYRow (fun m => .ora (.mem m)) 4 true,
   impliedRow (.nopU 0x1A .implied) 2,
   absYRow .slo 7,
   absXRow (fun m => .nopU 0x1C (.mem m)) 4 true,
   absXRow (fun m => .ora (.mem m)) 4 true,
   absXRow (fun m => .asl (.mem m)) 7,
   absXRow .slo 7]

/-- Opcode bytes 0x20 to 0x2F (30_encoding R121). -/
def opcodeRow2 : List OpRow :=
  [wordRow .jsr 6,
   indXRow (fun m => .and (.mem m)) 6,
   illegalRow 0x22,
   indXRow .rla 8,
   zpRow .bit 3,
   zpRow (fun m => .and (.mem m)) 3,
   zpRow (fun m => .rol (.mem m)) 5,
   zpRow .rla 5,
   impliedRow .plp 4,
   byteRow (fun v => .and (.imm v)) 2,
   impliedRow (.rol .acc) 2,
   illegalRow 0x2B,
   absRow .bit 4,
   absRow (fun m => .and (.mem m)) 4,
   absRow (fun m => .rol (.mem m)) 6,
   absRow .rla 6]

/-- Opcode bytes 0x30 to 0x3F (30_encoding R121). -/
def opcodeRow3 : List OpRow :=
  [byteRow .bmi 2 true,
   indYRow (fun m => .and (.mem m)) 5 true,
   illegalRow 0x32,
   indYRow .rla 8,
   zpXRow (fun m => .nopU 0x34 (.mem m)) 4,
   zpXRow (fun m => .and (.mem m)) 4,
   zpXRow (fun m => .rol (.mem m)) 6,
   zpXRow .rla 6,
   impliedRow .sec 2,
   absYRow (fun m => .and (.mem m)) 4 true,
   impliedRow (.nopU 0x3A .implied) 2,
   absYRow .rla 7,
   absXRow (fun m => .nopU 0x3C (.mem m)) 4 true,
   absXRow (fun m => .and (.mem m)) 4 true,
   absXRow (fun m => .rol (.mem m)) 7,
   absXRow .rla 7]

/-- Opcode bytes 0x40 to 0x4F (30_encoding R121). -/
def opcodeRow4 : List OpRow :=
  [impliedRow .rti 6,
   indXRow (fun m => .eor (.mem m)) 6,
   illegalRow 0x42,
   indXRow .sre 8,
   zpRow (fun m => .nopU 0x44 (.mem m)) 3,
   zpRow (fun m => .eor (.mem m)) 3,
   zpRow (fun m => .lsr (.mem m)) 5,
   zpRow .sre 5,
   impliedRow .pha 3,
   byteRow (fun v => .eor (.imm v)) 2,
   impliedRow (.lsr .acc) 2,
   illegalRow 0x4B,
   wordRow (fun w => .jmp (.abs w)) 3,
   absRow (fun m => .eor (.mem m)) 4,
   absRow (fun m => .lsr (.mem m)) 6,
   absRow .sre 6]

/-- Opcode bytes 0x50 to 0x5F (30_encoding R121). -/
def opcodeRow5 : List OpRow :=
  [byteRow .bvc 2 true,
   indYRow (fun m => .eor (.mem m)) 5 true,
   illegalRow 0x52,
   indYRow .sre 8,
   zpXRow (fun m => .nopU 0x54 (.mem m)) 4,
   zpXRow (fun m => .eor (.mem m)) 4,
   zpXRow (fun m => .lsr (.mem m)) 6,
   zpXRow .sre 6,
   impliedRow .cli 2,
   absYRow (fun m => .eor (.mem m)) 4 true,
   impliedRow (.nopU 0x5A .implied) 2,
   absYRow .sre 7,
   absXRow (fun m => .nopU 0x5C (.mem m)) 4 true,
   absXRow (fun m => .eor (.mem m)) 4 true,
   absXRow (fun m => .lsr (.mem m)) 7,
   absXRow .sre 7]

/-- Opcode bytes 0x60 to 0x6F (30_encoding R121). -/
def opcodeRow6 : List OpRow :=
  [impliedRow .rts 6,
   indXRow (fun m => .adc (.mem m)) 6,
   illegalRow 0x62,
   indXRow .rra 8,
   zpRow (fun m => .nopU 0x64 (.mem m)) 3,
   zpRow (fun m => .adc (.mem m)) 3,
   zpRow (fun m => .ror (.mem m)) 5,
   zpRow .rra 5,
   impliedRow .pla 4,
   byteRow (fun v => .adc (.imm v)) 2,
   impliedRow (.ror .acc) 2,
   illegalRow 0x6B,
   wordRow (fun w => .jmp (.ind w)) 5,
   absRow (fun m => .adc (.mem m)) 4,
   absRow (fun m => .ror (.mem m)) 6,
   absRow .rra 6]

/-- Opcode bytes 0x70 to 0x7F (30_encoding R121). -/
def opcodeRow7 : List OpRow :=
  [byteRow .bvs 2 true,
   indYRow (fun m => .adc (.mem m)) 5 true,
   illegalRow 0x72,
   indYRow .rra 8,
   zpXRow (fun m => .nopU 0x74 (.mem m)) 4,
   zpXRow (fun m => .adc (.mem m)) 4,
   zpXRow (fun m => .ror (.mem m)) 6,
   zpXRow .rra 6,
   impliedRow .sei 2,
   absYRow (fun m => .adc (.mem m)) 4 true,
   impliedRow (.nopU 0x7A .implied) 2,
   absYRow .rra 7,
   absXRow (fun m => .nopU 0x7C (.mem m)) 4 true,
   absXRow (fun m => .adc (.mem m)) 4 true,
   absXRow (fun m => .ror (.mem m)) 7,
   absXRow .rra 7]

/-- Opcode bytes 0x80 to 0x8F (30_encoding R121). -/
def opcodeRow8 : List OpRow :=
  [byteRow (fun v => .nopU 0x80 (.imm v)) 2,
   indXRow .sta 6,
   byteRow (fun v => .nopU 0x82 (.imm v)) 2,
   indXRow .sax 6,
   zpRow .sty 3,
   zpRow .sta 3,
   zpRow .stx 3,
   zpRow .sax 3,
   impliedRow .dey 2,
   byteRow (fun v => .nopU 0x89 (.imm v)) 2,
   impliedRow .txa 2,
   illegalRow 0x8B,
   absRow .sty 4,
   absRow .sta 4,
   absRow .stx 4,
   absRow .sax 4]

/-- Opcode bytes 0x90 to 0x9F (30_encoding R121). -/
def opcodeRow9 : List OpRow :=
  [byteRow .bcc 2 true,
   indYRow .sta 6,
   illegalRow 0x92,
   illegalRow 0x93,
   zpXRow .sty 4,
   zpXRow .sta 4,
   zpYRow .stx 4,
   zpYRow .sax 4,
   impliedRow .tya 2,
   absYRow .sta 5,
   impliedRow .txs 2,
   illegalRow 0x9B,
   illegalRow 0x9C,
   absXRow .sta 5,
   illegalRow 0x9E,
   illegalRow 0x9F]

/-- Opcode bytes 0xA0 to 0xAF (30_encoding R121). -/
def opcodeRowA : List OpRow :=
  [byteRow (fun v => .ldy (.imm v)) 2,
   indXRow (fun m => .lda (.mem m)) 6,
   byteRow (fun v => .ldx (.imm v)) 2,
   indXRow .lax 6,
   zpRow (fun m => .ldy (.mem m)) 3,
   zpRow (fun m => .lda (.mem m)) 3,
   zpRow (fun m => .ldx (.mem m)) 3,
   zpRow .lax 3,
   impliedRow .tay 2,
   byteRow (fun v => .lda (.imm v)) 2,
   impliedRow .tax 2,
   illegalRow 0xAB,
   absRow (fun m => .ldy (.mem m)) 4,
   absRow (fun m => .lda (.mem m)) 4,
   absRow (fun m => .ldx (.mem m)) 4,
   absRow .lax 4]

/-- Opcode bytes 0xB0 to 0xBF (30_encoding R121). -/
def opcodeRowB : List OpRow :=
  [byteRow .bcs 2 true,
   indYRow (fun m => .lda (.mem m)) 5 true,
   illegalRow 0xB2,
   indYRow .lax 5 true,
   zpXRow (fun m => .ldy (.mem m)) 4,
   zpXRow (fun m => .lda (.mem m)) 4,
   zpYRow (fun m => .ldx (.mem m)) 4,
   zpYRow .lax 4,
   impliedRow .clv 2,
   absYRow (fun m => .lda (.mem m)) 4 true,
   impliedRow .tsx 2,
   illegalRow 0xBB,
   absXRow (fun m => .ldy (.mem m)) 4 true,
   absXRow (fun m => .lda (.mem m)) 4 true,
   absYRow (fun m => .ldx (.mem m)) 4 true,
   absYRow .lax 4 true]

/-- Opcode bytes 0xC0 to 0xCF (30_encoding R121). -/
def opcodeRowC : List OpRow :=
  [byteRow (fun v => .cpy (.imm v)) 2,
   indXRow (fun m => .cmp (.mem m)) 6,
   byteRow (fun v => .nopU 0xC2 (.imm v)) 2,
   indXRow .dcp 8,
   zpRow (fun m => .cpy (.mem m)) 3,
   zpRow (fun m => .cmp (.mem m)) 3,
   zpRow .dec 5,
   zpRow .dcp 5,
   impliedRow .iny 2,
   byteRow (fun v => .cmp (.imm v)) 2,
   impliedRow .dex 2,
   illegalRow 0xCB,
   absRow (fun m => .cpy (.mem m)) 4,
   absRow (fun m => .cmp (.mem m)) 4,
   absRow .dec 6,
   absRow .dcp 6]

/-- Opcode bytes 0xD0 to 0xDF (30_encoding R121). -/
def opcodeRowD : List OpRow :=
  [byteRow .bne 2 true,
   indYRow (fun m => .cmp (.mem m)) 5 true,
   illegalRow 0xD2,
   indYRow .dcp 8,
   zpXRow (fun m => .nopU 0xD4 (.mem m)) 4,
   zpXRow (fun m => .cmp (.mem m)) 4,
   zpXRow .dec 6,
   zpXRow .dcp 6,
   impliedRow .cld 2,
   absYRow (fun m => .cmp (.mem m)) 4 true,
   impliedRow (.nopU 0xDA .implied) 2,
   absYRow .dcp 7,
   absXRow (fun m => .nopU 0xDC (.mem m)) 4 true,
   absXRow (fun m => .cmp (.mem m)) 4 true,
   absXRow .dec 7,
   absXRow .dcp 7]

/-- Opcode bytes 0xE0 to 0xEF (30_encoding R121). -/
def opcodeRowE : List OpRow :=
  [byteRow (fun v => .cpx (.imm v)) 2,
   indXRow (fun m => .sbc (.mem m)) 6,
   byteRow (fun v => .nopU 0xE2 (.imm v)) 2,
   indXRow .isb 8,
   zpRow (fun m => .cpx (.mem m)) 3,
   zpRow (fun m => .sbc (.mem m)) 3,
   zpRow .inc 5,
   zpRow .isb 5,
   impliedRow .inx 2,
   byteRow (fun v => .sbc (.imm v)) 2,
   impliedRow .nop 2,
   byteRow .sbcU 2,
   absRow (fun m => .cpx (.mem m)) 4,
   absRow (fun m => .sbc (.mem m)) 4,
   absRow .inc 6,
   absRow .isb 6]

/-- Opcode bytes 0xF0 to 0xFF (30_encoding R121). -/
def opcodeRowF : List OpRow :=
  [byteRow .beq 2 true,
   indYRow (fun m => .sbc (.mem m)) 5 true,
   illegalRow 0xF2,
   indYRow .isb 8,
   zpXRow (fun m => .nopU 0xF4 (.mem m)) 4,
   zpXRow (fun m => .sbc (.mem m)) 4,
   zpXRow .inc 6,
   zpXRow .isb 6,
   impliedRow .sed 2,
   absYRow (fun m => .sbc (.mem m)) 4 true,
   impliedRow (.nopU 0xFA .implied) 2,
   absYRow .isb 7,
   absXRow (fun m => .nopU 0xFC (.mem m)) 4 true,
   absXRow (fun m => .sbc (.mem m)) 4 true,
   absXRow .inc 7,
   absXRow .isb 7]

/-- The opcode table, one list for each high half of the opcode byte (30_encoding R121). -/
def opcodeTable : List (List OpRow) :=
  [opcodeRow0, opcodeRow1, opcodeRow2, opcodeRow3, opcodeRow4, opcodeRow5, opcodeRow6, opcodeRow7] ++
  [opcodeRow8, opcodeRow9, opcodeRowA, opcodeRowB, opcodeRowC, opcodeRowD, opcodeRowE, opcodeRowF]

/-- The table's row of an opcode byte: every byte value has one (30_encoding R102, R122). -/
def rowOf (op : Byte) : OpRow :=
  (opcodeTable.getD (op.toNat / 16) []).getD (op.toNat % 16) (illegalRow op)

/-- How many operand bytes follow the opcode byte; nothing else decides the length (30_encoding R123). -/
def operandCount (op : Byte) : Nat := (rowOf op).operands

/-- The instruction of an opcode byte and its operand bytes; operand bytes the row has not are ignored. -/
def instrOf (op b1 b2 : Byte) : Instr := (rowOf op).instr b1 b2

/-- Why a list of bytes holds no instruction: it ends too early. -/
inductive DecodeError where
  | noBytes
  | operandMissing (op : Byte)
  deriving DecidableEq, Repr

/-- Decode one instruction from the front of a list of bytes and give the rest (30_encoding R100, R102). -/
def decode : List Byte → Except DecodeError (Instr × List Byte)
  | [] => .error .noBytes
  | op :: rest =>
    match operandCount op, rest with
    | 0, rest => .ok (instrOf op 0 0, rest)
    | 1, b1 :: rest => .ok (instrOf op b1 0, rest)
    | 2, b1 :: b2 :: rest => .ok (instrOf op b1 b2, rest)
    | _, _ => .error (.operandMissing op)

/-- The base cycle count that the opcode table gives a byte (30_encoding R121). -/
def baseCycles (op : Byte) : Nat := (rowOf op).base

/-- Whether the opcode table gives a byte the page-cross cycle (30_encoding R121). -/
def pagePenalty (op : Byte) : Bool := (rowOf op).penalty

/-- The defaults of the timing parameters: the opcode table's columns, and a stall of 514 (00_scope R6). -/
def Timing.standard : Timing :=
  { base := opcodeTable.flatten.map OpRow.base
    penalty := opcodeTable.flatten.map OpRow.penalty
    dmaStall := Config.dmaStall }

/-- The bytes of a number, least significant first: how the machine stores the bytes of an instruction
(30_encoding R101, 20_memory R85). -/
def bytesOfNat : Nat → Nat → List Byte
  | 0, _ => []
  | n + 1, w => BitVec.ofNat 8 (w % 256) :: bytesOfNat n (w / 256)

/-- The longest instruction has three bytes (30_encoding R100). -/
def tableWordBytes (nbits w : Nat) : List Byte := bytesOfNat 3 (w % 2 ^ nbits)

/-- What the decoder reads from an instruction whose bits are `w`, bit 0 the least significant of its first byte;
bits from `nbits` up are 0. -/
def decodeTableWord (nbits w : Nat) : Option Instr :=
  match decode (tableWordBytes nbits w) with
  | .ok (i, _) => some i
  | .error _ => none

/-! The encoder. -/

/-- The opcode bytes of one mnemonic, by mode. -/
structure Codes where
  imm  : Option Byte := none
  acc  : Option Byte := none
  zp   : Option Byte := none
  zpX  : Option Byte := none
  zpY  : Option Byte := none
  abs  : Option Byte := none
  absX : Option Byte := none
  absY : Option Byte := none
  indX : Option Byte := none
  indY : Option Byte := none

/-- The opcode of a memory form. -/
def Codes.ofMem (c : Codes) : AddrMode → Option Byte
  | .zp _ => c.zp
  | .zpX _ => c.zpX
  | .zpY _ => c.zpY
  | .abs _ => c.abs
  | .absX _ => c.absX
  | .absY _ => c.absY
  | .indX _ => c.indX
  | .indY _ => c.indY

/-- The opcode of a reading form. -/
def Codes.ofOperand (c : Codes) : Operand → Option Byte
  | .imm _ => c.imm
  | .mem m => c.ofMem m

/-- The opcode of a shift form. -/
def Codes.ofShift (c : Codes) : ShiftOperand → Option Byte
  | .acc => c.acc
  | .mem m => c.ofMem m

def codesLda : Codes :=
  { imm := some 0xA9, zp := some 0xA5, zpX := some 0xB5, abs := some 0xAD, absX := some 0xBD,
    absY := some 0xB9, indX := some 0xA1, indY := some 0xB1 }
def codesLdx : Codes := { imm := some 0xA2, zp := some 0xA6, zpY := some 0xB6, abs := some 0xAE, absY := some 0xBE }
def codesLdy : Codes := { imm := some 0xA0, zp := some 0xA4, zpX := some 0xB4, abs := some 0xAC, absX := some 0xBC }
def codesSta : Codes :=
  { zp := some 0x85, zpX := some 0x95, abs := some 0x8D, absX := some 0x9D, absY := some 0x99, indX := some 0x81,
    indY := some 0x91 }
def codesStx : Codes := { zp := some 0x86, zpY := some 0x96, abs := some 0x8E }
def codesSty : Codes := { zp := some 0x84, zpX := some 0x94, abs := some 0x8C }
def codesAdc : Codes :=
  { imm := some 0x69, zp := some 0x65, zpX := some 0x75, abs := some 0x6D, absX := some 0x7D,
    absY := some 0x79, indX := some 0x61, indY := some 0x71 }
def codesSbc : Codes :=
  { imm := some 0xE9, zp := some 0xE5, zpX := some 0xF5, abs := some 0xED, absX := some 0xFD,
    absY := some 0xF9, indX := some 0xE1, indY := some 0xF1 }
def codesAnd : Codes :=
  { imm := some 0x29, zp := some 0x25, zpX := some 0x35, abs := some 0x2D, absX := some 0x3D,
    absY := some 0x39, indX := some 0x21, indY := some 0x31 }
def codesOra : Codes :=
  { imm := some 0x09, zp := some 0x05, zpX := some 0x15, abs := some 0x0D, absX := some 0x1D,
    absY := some 0x19, indX := some 0x01, indY := some 0x11 }
def codesEor : Codes :=
  { imm := some 0x49, zp := some 0x45, zpX := some 0x55, abs := some 0x4D, absX := some 0x5D,
    absY := some 0x59, indX := some 0x41, indY := some 0x51 }
def codesBit : Codes := { zp := some 0x24, abs := some 0x2C }
def codesCmp : Codes :=
  { imm := some 0xC9, zp := some 0xC5, zpX := some 0xD5, abs := some 0xCD, absX := some 0xDD,
    absY := some 0xD9, indX := some 0xC1, indY := some 0xD1 }
def codesCpx : Codes := { imm := some 0xE0, zp := some 0xE4, abs := some 0xEC }
def codesCpy : Codes := { imm := some 0xC0, zp := some 0xC4, abs := some 0xCC }
def codesInc : Codes := { zp := some 0xE6, zpX := some 0xF6, abs := some 0xEE, absX := some 0xFE }
def codesDec : Codes := { zp := some 0xC6, zpX := some 0xD6, abs := some 0xCE, absX := some 0xDE }
def codesAsl : Codes := { acc := some 0x0A, zp := some 0x06, zpX := some 0x16, abs := some 0x0E, absX := some 0x1E }
def codesLsr : Codes := { acc := some 0x4A, zp := some 0x46, zpX := some 0x56, abs := some 0x4E, absX := some 0x5E }
def codesRol : Codes := { acc := some 0x2A, zp := some 0x26, zpX := some 0x36, abs := some 0x2E, absX := some 0x3E }
def codesRor : Codes := { acc := some 0x6A, zp := some 0x66, zpX := some 0x76, abs := some 0x6E, absX := some 0x7E }
def codesLax : Codes :=
  { zp := some 0xA7, zpY := some 0xB7, abs := some 0xAF, absY := some 0xBF, indX := some 0xA3, indY := some 0xB3 }
def codesSax : Codes := { zp := some 0x87, zpY := some 0x97, abs := some 0x8F, indX := some 0x83 }
def codesDcp : Codes :=
  { zp := some 0xC7, zpX := some 0xD7, abs := some 0xCF, absX := some 0xDF, absY := some 0xDB, indX := some 0xC3,
    indY := some 0xD3 }
def codesIsb : Codes :=
  { zp := some 0xE7, zpX := some 0xF7, abs := some 0xEF, absX := some 0xFF, absY := some 0xFB, indX := some 0xE3,
    indY := some 0xF3 }
def codesSlo : Codes :=
  { zp := some 0x07, zpX := some 0x17, abs := some 0x0F, absX := some 0x1F, absY := some 0x1B, indX := some 0x03,
    indY := some 0x13 }
def codesRla : Codes :=
  { zp := some 0x27, zpX := some 0x37, abs := some 0x2F, absX := some 0x3F, absY := some 0x3B, indX := some 0x23,
    indY := some 0x33 }
def codesSre : Codes :=
  { zp := some 0x47, zpX := some 0x57, abs := some 0x4F, absX := some 0x5F, absY := some 0x5B, indX := some 0x43,
    indY := some 0x53 }
def codesRra : Codes :=
  { zp := some 0x67, zpX := some 0x77, abs := some 0x6F, absX := some 0x7F, absY := some 0x7B, indX := some 0x63,
    indY := some 0x73 }

/-- The opcode byte of an instruction, none where its form has no row (the "Encoding" lines of files 40 to 46). -/
def Instr.opcode : Instr → Option Byte
  | .lda o => codesLda.ofOperand o
  | .ldx o => codesLdx.ofOperand o
  | .ldy o => codesLdy.ofOperand o
  | .sta m => codesSta.ofMem m
  | .stx m => codesStx.ofMem m
  | .sty m => codesSty.ofMem m
  | .tax => some 0xAA
  | .tay => some 0xA8
  | .txa => some 0x8A
  | .tya => some 0x98
  | .tsx => some 0xBA
  | .txs => some 0x9A
  | .pha => some 0x48
  | .php => some 0x08
  | .pla => some 0x68
  | .plp => some 0x28
  | .adc o => codesAdc.ofOperand o
  | .sbc o => codesSbc.ofOperand o
  | .and o => codesAnd.ofOperand o
  | .ora o => codesOra.ofOperand o
  | .eor o => codesEor.ofOperand o
  | .bit m => codesBit.ofMem m
  | .cmp o => codesCmp.ofOperand o
  | .cpx o => codesCpx.ofOperand o
  | .cpy o => codesCpy.ofOperand o
  | .inc m => codesInc.ofMem m
  | .dec m => codesDec.ofMem m
  | .inx => some 0xE8
  | .iny => some 0xC8
  | .dex => some 0xCA
  | .dey => some 0x88
  | .asl o => codesAsl.ofShift o
  | .lsr o => codesLsr.ofShift o
  | .rol o => codesRol.ofShift o
  | .ror o => codesRor.ofShift o
  | .jmp (.abs _) => some 0x4C
  | .jmp (.ind _) => some 0x6C
  | .jsr _ => some 0x20
  | .rts => some 0x60
  | .rti => some 0x40
  | .brk => some 0x00
  | .bcc _ => some 0x90
  | .bcs _ => some 0xB0
  | .beq _ => some 0xF0
  | .bne _ => some 0xD0
  | .bmi _ => some 0x30
  | .bpl _ => some 0x10
  | .bvc _ => some 0x50
  | .bvs _ => some 0x70
  | .clc => some 0x18
  | .sec => some 0x38
  | .cli => some 0x58
  | .sei => some 0x78
  | .cld => some 0xD8
  | .sed => some 0xF8
  | .clv => some 0xB8
  | .nop => some 0xEA
  | .nopU op _ => some op
  | .lax m => codesLax.ofMem m
  | .sax m => codesSax.ofMem m
  | .sbcU _ => some 0xEB
  | .dcp m => codesDcp.ofMem m
  | .isb m => codesIsb.ofMem m
  | .slo m => codesSlo.ofMem m
  | .rla m => codesRla.ofMem m
  | .sre m => codesSre.ofMem m
  | .rra m => codesRra.ofMem m
  | .illegal op => some op

/-- A word as operand bytes, low byte first (30_encoding R110). -/
def wordBytes (w : Addr) : List Byte := [loByte w, hiByte w]

/-- The operand bytes of a memory form (30_encoding R100). -/
def AddrMode.bytes : AddrMode → List Byte
  | .zp z | .zpX z | .zpY z | .indX z | .indY z => [z]
  | .abs w | .absX w | .absY w => wordBytes w

/-- The operand bytes of an instruction (30_encoding R100). -/
def Instr.operandBytes : Instr → List Byte
  | .lda o | .ldx o | .ldy o | .adc o | .sbc o | .and o | .ora o | .eor o | .cmp o | .cpx o | .cpy o =>
    match o with
    | .imm v => [v]
    | .mem m => m.bytes
  | .sta m | .stx m | .sty m | .bit m | .inc m | .dec m => m.bytes
  | .lax m | .sax m | .dcp m | .isb m | .slo m | .rla m | .sre m | .rra m => m.bytes
  | .asl o | .lsr o | .rol o | .ror o =>
    match o with
    | .acc => []
    | .mem m => m.bytes
  | .nopU _ o =>
    match o with
    | .implied => []
    | .imm v => [v]
    | .mem m => m.bytes
  | .jmp (.abs w) | .jmp (.ind w) | .jsr w => wordBytes w
  | .bcc d | .bcs d | .beq d | .bne d | .bmi d | .bpl d | .bvc d | .bvs d | .sbcU d => [d]
  | .tax | .tay | .txa | .tya | .tsx | .txs | .pha | .php | .pla | .plp => []
  | .inx | .iny | .dex | .dey | .rts | .rti | .brk => []
  | .clc | .sec | .cli | .sei | .cld | .sed | .clv | .nop | .illegal _ => []

/-- The bytes of a well-formed instruction; no bytes for a term that has no row. -/
def encode (i : Instr) : List Byte :=
  match i.opcode with
  | some op => op :: i.operandBytes
  | none => []

end Sys2Proof
end

