-- ==== Sys2Proof/Machine/Memory.lean ====
section
/-! DEFINITION. Byte memories as sorted lists of cells in one canonical form, and what an unlisted address reads as. -/

namespace Sys2Proof.Machine

/-- A byte memory: cells with strictly rising addresses, none equal to what an unlisted address reads as. -/
abbrev Memory := List Host.Cell

/-- What an unlisted address reads as (10_state R57 leaves every initial memory unspecified).
DESIGN CHOICE, unsafe: notes/assumptions/1.md. -/
def unlistedByte : Byte := 0x00

/-- The byte at an address. -/
def Memory.read : Memory → Nat → Byte
  | [], _ => unlistedByte
  | (b, w) :: m, a => if b = a then w else Memory.read m a

/-- Put a cell in front, unless it holds what an unlisted address reads as. -/
def Memory.cell (a : Nat) (v : Byte) (m : Memory) : Memory :=
  if v = unlistedByte then m else (a, v) :: m

/-- Store a byte, keeping the canonical form. -/
def Memory.write : Memory → Nat → Byte → Memory
  | [], a, v => Memory.cell a v []
  | (b, w) :: m, a, v =>
    if a < b then Memory.cell a v ((b, w) :: m)
    else if a = b then Memory.cell a v m
    else (b, w) :: Memory.write m a v

/-- The addresses rise strictly from `lo` on, stay below `hi`, and no cell is listed in vain. -/
def Memory.wfFrom (lo hi : Nat) : Memory → Bool
  | [] => true
  | (b, w) :: m => decide (lo ≤ b ∧ b < hi ∧ w ≠ unlistedByte) && Memory.wfFrom (b + 1) hi m

/-- The canonical form of a memory of `size` bytes. -/
def Memory.wf (size : Nat) (m : Memory) : Bool := Memory.wfFrom 0 size m

end Sys2Proof.Machine
end

