-- ==== Sys2Proof/Machine/Cartridge.lean ====
section
/-! DEFINITION. The cartridge: program ROM, its size and the mirroring mode (00_scope R6), and what the CPU reads at
0x8000 to 0xFFFF (20_memory R74). -/

namespace Sys2Proof.Machine

/-- The length of `PRG`: 0x4000 or 0x8000 bytes (20_memory R74). -/
inductive Banks where
  | one
  | two
  deriving DecidableEq, Repr

/-- The cartridge's nametable mirroring mode (47_ppu_ports R253). -/
inductive Mirroring where
  | horizontal
  | vertical
  deriving DecidableEq, Repr

/-- The parameters `PRG`, its length, and `MIRRORING` (00_scope R6). No step changes them
(10_state R54, R58; notes/assumptions/3.md). -/
structure Cartridge where
  prg       : Memory
  banks     : Banks
  mirroring : Mirroring
  deriving DecidableEq, Repr

/-- The number of bytes of `PRG`. -/
def Banks.size : Banks → Nat
  | .one => 0x4000
  | .two => 0x8000

/-- `RomOffset(a)` for an address in 0x8000 to 0xFFFF (20_memory R74). -/
def romOffset (banks : Banks) (a : Addr) : Nat := (a.toNat - 0x8000) % banks.size

/-- The ROM byte at an address in 0x8000 to 0xFFFF (20_memory R64). -/
def Cartridge.byte (c : Cartridge) (a : Addr) : Byte := Memory.read c.prg (romOffset c.banks a)

/-- `MemRead(v, 2)` for one of the three vectors, low byte first (20_memory R77, R80, R85). -/
def Cartridge.vector (c : Cartridge) (v : Addr) : Addr := joinBytes (c.byte (v + 1)) (c.byte v)

/-- `NtRemap(off)` (47_ppu_ports R253). -/
def ntRemap (m : Mirroring) (off : Nat) : Nat :=
  match m with
  | .horizontal => off % 0x800
  | .vertical => off

end Sys2Proof.Machine
end

