-- ==== Sys2Proof/Machine/Tiles.lean ====
section
/-! DEFINITION. The records the PPU builds: tiles, sprites and frames, the pattern decoder and sprite evaluation
(48_ppu_rendering R281 to R283, R287, R288). -/

namespace Sys2Proof.Machine

/-- An 8 by 8 matrix of pixel indices 0..3: eight rows from the top, eight columns from the left (R282). -/
abbrev Pixels := List (List (BitVec 2))

/-- A background tile record (48_ppu_rendering R281). -/
structure Tile where
  pixels    : Pixels
  paletteId : BitVec 2
  scrollX   : Byte
  scrollY   : Byte
  deriving DecidableEq, Repr

/-- A sprite record; `y` is signed, -8..247 (48_ppu_rendering R283). -/
structure Sprite where
  pixels    : Pixels
  x         : Byte
  y         : Int
  attr      : Byte
  patternId : Byte
  deriving DecidableEq, Repr

/-- A frame record (48_ppu_rendering R288). -/
structure Frame where
  background : List Tile
  palette    : List Byte
  sprites    : List Sprite
  deriving DecidableEq, Repr

/-- One pixel index: plane 0 gives bit 0, plane 1, eight bytes on, bit 1; bit 7 is the leftmost pixel (R282). -/
def pixelAt (chr : Memory) (base y x : Nat) : BitVec 2 :=
  BitVec.ofBool ((Memory.read chr (base + 8 + y)).getLsbD (7 - x)) ++
    BitVec.ofBool ((Memory.read chr (base + y)).getLsbD (7 - x))

/-- `Pattern(base)` (48_ppu_rendering R282). -/
def pattern (chr : Memory) (base : Nat) : Pixels :=
  (List.range 8).map fun y => (List.range 8).map fun x => pixelAt chr base y x

/-- The base of pattern table 0 or 1 (10_state R41). -/
def patternTable (table1 : Bool) : Nat := if table1 then 0x1000 else 0x0000

/-- Sprite `i` of OAM (48_ppu_rendering R283). -/
def evaluateSprite (oam chr : Memory) (ctrl : Byte) (i : Nat) : Sprite :=
  { pixels := pattern chr (patternTable (ctrl.getLsbD 3) + 16 * (Memory.read oam (4 * i + 1)).toNat)
    x := Memory.read oam (4 * i + 3)
    y := (Memory.read oam (4 * i)).toNat - 8
    attr := Memory.read oam (4 * i + 2)
    patternId := Memory.read oam (4 * i + 1) }

/-- `EvaluateSprites()`: all 64 sprites in OAM order (48_ppu_rendering R283). -/
def evaluateSprites (oam chr : Memory) (ctrl : Byte) : List Sprite :=
  (List.range 64).map (evaluateSprite oam chr ctrl)

/-- The palette entry that entry `i` of a snapshot shows: the two mirror rules (48_ppu_rendering R287). -/
def snapshotIndex (i : Nat) : Nat :=
  if i = 0x10 ∨ i = 0x14 ∨ i = 0x18 ∨ i = 0x1C then i - 0x10
  else if i = 0x04 ∨ i = 0x08 ∨ i = 0x0C then 0x00
  else i

/-- `PaletteSnapshot()` (48_ppu_rendering R287). -/
def paletteSnapshot (palette : Memory) : List Byte :=
  (List.range 32).map fun i => Memory.read palette (snapshotIndex i)

end Sys2Proof.Machine
end

