-- ==== Sys2Proof/Machine/State.lean ====
section
/-! DEFINITION. The state of the machine (10_state), the reasons a step can stop, and the state after power-on and
reset (10_state R57). -/

namespace Sys2Proof.Machine

/-- `P`, eight independent flags (10_state R27). -/
structure Flags where
  n : Bool   -- negative, bit 7
  v : Bool   -- overflow, bit 6
  r : Bool   -- reserved, bit 5, always 1 (R28)
  b : Bool   -- break, bit 4, stored (R29)
  d : Bool   -- decimal, bit 3, stored and never consulted (R32)
  i : Bool   -- interrupt-disable, bit 2
  z : Bool   -- zero, bit 1
  c : Bool   -- carry, bit 0
  deriving DecidableEq, Repr

/-- The PPU's state (10_state R40 to R51). -/
structure Ppu where
  cycle        : Nat            -- R40, 0..340
  scanline     : Nat            -- R40, 0..261
  ctrl         : Byte           -- R41
  mask         : Byte           -- R42
  status       : Byte           -- R43
  oamAddr      : Byte           -- R44
  scrollX      : Byte           -- R45
  scrollY      : Byte           -- R45
  scrollToggle : Bool           -- R45, true: the next port-5 write is Y
  vramAddr     : Addr           -- R46
  addrToggle   : Bool           -- R46, true: the next port-6 write is the low byte
  vram         : Memory         -- R47, 0x1000 bytes
  palette      : Memory         -- R48, 32 bytes
  oam          : Memory         -- R49, 256 bytes
  chr          : Memory         -- R50, 0x2000 bytes
  background   : List Tile      -- R51
  sprites      : List Sprite    -- R51
  deriving DecidableEq, Repr

/-- An open parameter's instance: the event never happens, or whether it happens is a free value each time
(48_ppu_rendering R278, 60_exceptions R327). -/
inductive OpenRule where
  | never
  | any
  deriving DecidableEq, Repr

/-- The parameters that the machine consults after power-on, fixed for the run (00_scope R6): the status pattern `P0` that
`CPU.reset()` writes, the timing, and the instances of the two open parameters (notes/assumptions/2.md, 5.md, 6.md, 15.md). -/
structure Environment where
  p0          : Flags
  timing      : Timing
  sprite0Hit  : OpenRule
  externalIrq : OpenRule
  deriving DecidableEq, Repr

/-- An output event (20_memory R79). -/
inductive Event where
  | audioWrite (offset : Nat) (v : Byte)   -- R70
  | audioStatusRead                        -- R71
  | inputWrite (v : Byte)                  -- R73
  | inputRead                              -- R72
  | frame (f : Frame)                      -- 48_ppu_rendering R288
  deriving DecidableEq, Repr

/-- A bus access, as an `UnmappedAddress` fault records it (60_exceptions R325). -/
inductive Access where
  | read  (a : Addr)
  | write (a : Addr) (v : Byte)
  deriving DecidableEq, Repr

/-- The faults of the machine (60_exceptions R325). Each is the spec's own fatal condition. -/
inductive Fault where
  /-- Raised by the meaning of an illegal opcode byte, with `pc0` (R321). Safe: the spec's own fault. -/
  | illegalOpcode (op : Byte) (pc0 : Addr)
  /-- Raised by the bus for an address outside every decoded range (R322). Safe: the spec's own fault. -/
  | unmappedAddress (access : Access)
  /-- Raised by a port-7 write above 0x3F00 of a value above 0x3F (R323). Safe: the spec's own fault. -/
  | invalidPaletteWrite (vramAddr : Addr) (v : Byte)
  /-- Raised by the DMA copy from page 0x08 or above (R324). Safe: the spec's own fault. -/
  | dmaSourceOutOfRange (page : Byte)
  /-- Raised by a read of PPU port 7 (R324). Safe: the spec's own fault. -/
  | ppuDataReadRefused (a : Addr)
  deriving DecidableEq, Repr

/-- The refusals of the model. -/
inductive Refusal where
  /-- Raised by `exec` for an instruction that has no meaning yet; no arm uses it now. Safe: the step stops. -/
  | notModelled (mnemonic : String)
  deriving DecidableEq, Repr

/-- The whole machine (10_state R20). -/
structure State where
  a          : Byte               -- R21
  x          : Byte               -- R22
  y          : Byte               -- R23
  sp         : Byte               -- R24, the register S
  p          : Flags              -- R27
  pc         : Addr               -- R25
  nmi        : Bool               -- R35, ic.nmi
  irq        : Bool               -- R36, ic.irq
  dmaPage    : Byte               -- R38, dma.page
  dmaPending : Bool               -- R38, dma.pending
  ppu        : Ppu                -- R40 to R51
  ram        : Memory             -- R53, 2048 bytes
  faulted    : Option Fault       -- R56
  cart       : Cartridge          -- parameters PRG and MIRRORING (00_scope R6)
  env        : Environment        -- the other parameters of the run (00_scope R6)
  draws      : Nat                -- the model's own: oracle values drawn so far (notes/assumptions/4.md)
  events     : List Event         -- the model's own: the output history of 20_memory R79 (notes/assumptions/7.md)
  cycles     : Nat                -- the model's own: what the last MachineStep returned (notes/assumptions/8.md)
  stepped    : Bool               -- the model's own: a machine step has been taken (notes/assumptions/6.md)
  deriving DecidableEq, Repr

/-- What power-on takes from outside, every parameter of 00_scope R6: the registers' power-on values `A0`, `X0`, `Y0`, `S0`
and `PC0`, the cartridge, the parameters of `Environment` with `P0` among them, and the initial memories, which 10_state R57
leaves unspecified. -/
structure PowerOn where
  a0      : Byte
  x0      : Byte
  y0      : Byte
  s0      : Byte
  pc0     : Addr
  cart    : Cartridge
  env     : Environment
  chr     : Memory
  ram     : Memory
  vram    : Memory
  oam     : Memory
  palette : Memory
  deriving DecidableEq, Repr

/-- The default of `P0`, 0x34: R, B and I set (00_scope R6, 10_state R57; notes/assumptions/2.md). -/
def powerOnFlags : Flags :=
  { n := false, v := false, r := true, b := true, d := false, i := true, z := false, c := false }

/-- The PPU after power-on (10_state R57): counters, registers and toggles 0, no background, sprites evaluated. -/
def PowerOn.ppu (w : PowerOn) : Ppu :=
  { cycle := 0, scanline := 0, ctrl := 0, mask := 0, status := 0, oamAddr := 0
    scrollX := 0, scrollY := 0, scrollToggle := false, vramAddr := 0, addrToggle := false
    vram := w.vram, palette := w.palette, oam := w.oam, chr := w.chr
    background := [], sprites := evaluateSprites w.oam w.chr 0 }

/-- The machine after power-on, before `CPU.reset()` (10_state R57, 70_reset_and_hazards R350). -/
def PowerOn.powered (w : PowerOn) : State :=
  { a := w.a0, x := w.x0, y := w.y0, sp := w.s0
    p := w.env.p0, pc := w.pc0
    nmi := false, irq := false, dmaPage := 0, dmaPending := false
    ppu := w.ppu, ram := w.ram, faulted := none, cart := w.cart, env := w.env
    draws := 0, events := [], cycles := 0, stepped := false }

/-- The machine after power-on and `CPU.reset()` (10_state R57, 70_reset_and_hazards R350 to R353). -/
def PowerOn.reset (w : PowerOn) : State :=
  { w.powered with p := w.env.p0, pc := w.cart.vector Config.resetVector }

/-- The registers and the timing at the parameters' defaults (notes/assumptions/2.md, 15.md) and nothing loaded: every
memory empty (notes/assumptions/1.md), two banks, horizontal mirroring (notes/assumptions/3.md), the open parameters as
notes/assumptions/5.md and 6.md say. -/
def blankPowerOn : PowerOn :=
  { a0 := Config.axy0, x0 := Config.axy0, y0 := Config.axy0, s0 := Config.s0, pc0 := Config.pc0
    cart := { prg := [], banks := .two, mirroring := .horizontal }
    env := { p0 := powerOnFlags, timing := .standard, sprite0Hit := .any, externalIrq := .never }
    chr := [], ram := [], vram := [], oam := [], palette := [] }

/-- The machine right after reset, with nothing loaded. -/
def State.reset : State := blankPowerOn.reset

end Sys2Proof.Machine
end

