-- ==== Sys2Proof/Machine/Updates.lean ====
section
/-! DEFINITION. The result of an operation that can stop, and one named update per piece of state. -/

namespace Sys2Proof.Machine

/-- What an operation answers: a value, or a stop with a fault or a refusal. -/
abbrev Res (α : Type) := Host.Outcome α Fault Refusal

/-- Go on with the value, or stop as the first operation stopped. -/
def Res.andThen {α β : Type} (r : Res α) (f : α → Res β) : Res β :=
  match r with
  | .next v => f v
  | .fault e => .fault e
  | .refused e => .refused e

def State.setA (s : State) (v : Byte) : State := { s with a := v }
def State.setX (s : State) (v : Byte) : State := { s with x := v }
def State.setY (s : State) (v : Byte) : State := { s with y := v }
def State.setSp (s : State) (v : Byte) : State := { s with sp := v }
def State.setP (s : State) (v : Flags) : State := { s with p := v }
def State.setPc (s : State) (v : Addr) : State := { s with pc := v }
def State.setNmi (s : State) (v : Bool) : State := { s with nmi := v }
def State.setIrq (s : State) (v : Bool) : State := { s with irq := v }
def State.setDmaPage (s : State) (v : Byte) : State := { s with dmaPage := v }
def State.setDmaPending (s : State) (v : Bool) : State := { s with dmaPending := v }
def State.setPpu (s : State) (v : Ppu) : State := { s with ppu := v }
def State.setRam (s : State) (v : Memory) : State := { s with ram := v }
def State.setCycles (s : State) (v : Nat) : State := { s with cycles := v }
def State.setStepped (s : State) (v : Bool) : State := { s with stepped := v }

/-- `emit Event(...)`: append to the output history (20_memory R79). -/
def State.emit (s : State) (e : Event) : State := { s with events := s.events ++ [e] }

/-- One oracle value has been drawn (20_memory R78). -/
def State.drawn (s : State) : State := { s with draws := s.draws + 1 }

end Sys2Proof.Machine
end

