-- ==== Sys2Proof/Machine/Flags.lean ====
section
/-! DEFINITION. The status byte and every flag computation (10_state R27 to R31, 41_transfer_stack R148, R150,
42_arithmetic_logic R160, R167, 43_shift_rotate R180 to R183), and the branch conditions (44_control_flow R196). -/

namespace Sys2Proof.Machine

/-- `P` as a byte: `N ++ V ++ R ++ B ++ D ++ I ++ Z ++ C` (10_state R27). -/
def Flags.toByte (p : Flags) : Byte :=
  BitVec.ofBool p.n ++ BitVec.ofBool p.v ++ BitVec.ofBool p.r ++ BitVec.ofBool p.b ++
    BitVec.ofBool p.d ++ BitVec.ofBool p.i ++ BitVec.ofBool p.z ++ BitVec.ofBool p.c

/-- The flags a byte spells (10_state R27). -/
def Flags.ofByte (v : Byte) : Flags :=
  { n := v.getLsbD 7, v := v.getLsbD 6, r := v.getLsbD 5, b := v.getLsbD 4
    d := v.getLsbD 3, i := v.getLsbD 2, z := v.getLsbD 1, c := v.getLsbD 0 }

/-- `P` after a pulled status byte: N V D I Z C from the byte, the reserved flag 1, the stored break flag kept
(41_transfer_stack R150, 44_control_flow R194). -/
def Flags.pulled (p : Flags) (v : Byte) : Flags := { Flags.ofByte v with r := true, b := p.b }

/-- `SetNZ(v)` (10_state R30). -/
def Flags.setNZ (p : Flags) (v : Byte) : Flags := { p with n := v.getLsbD 7, z := decide (v = 0) }

/-- `SetNZ(v)` on the state. -/
def State.setNZ (s : State) (v : Byte) : State := s.setP (s.p.setNZ v)

/-- Write the carry flag. -/
def State.setC (s : State) (c : Bool) : State := s.setP { s.p with c := c }

/-- The result and the flags of the adder: `A + M + C`, its carry, and the signed overflow
(42_arithmetic_logic R160). -/
structure Sum where
  result   : Byte
  carry    : Bool
  overflow : Bool
  deriving DecidableEq, Repr

/-- The single adder of the CPU, binary whatever the decimal flag holds (42_arithmetic_logic R160). -/
def addBytes (a m : Byte) (c : Bool) : Sum :=
  let sum := a.toNat + m.toNat + c.toNat
  let r := BitVec.ofNat 8 sum
  { result := r, carry := decide (sum > 0xFF), overflow := decide (~~~(a ^^^ m) &&& (a ^^^ r) &&& 0x80 ≠ 0) }

/-- `AddWithCarry(M)` (42_arithmetic_logic R160). -/
def State.addWithCarry (s : State) (m : Byte) : State :=
  let sum := addBytes s.a m s.p.c
  ((s.setP { s.p with v := sum.overflow, c := sum.carry }).setA sum.result).setNZ sum.result

/-- `Compare(reg, M)`: carry is "no borrow", N and Z of the difference; nothing else changes
(42_arithmetic_logic R167). -/
def State.compare (s : State) (reg m : Byte) : State :=
  (s.setC (decide (m.toNat ≤ reg.toNat))).setNZ (reg - m)

/-- BIT's flags: N and V from the memory byte, Z from the AND (42_arithmetic_logic R166). -/
def State.bitTest (s : State) (m : Byte) : State :=
  s.setP { s.p with n := m.getLsbD 7, v := m.getLsbD 6, z := decide (s.a &&& m = 0) }

/-- A shifted byte and the bit shifted out. -/
structure Shifted where
  result : Byte
  carry  : Bool
  deriving DecidableEq, Repr

/-- ASL (43_shift_rotate R180). -/
def shiftLeft (v : Byte) : Shifted := { result := v <<< 1, carry := v.getLsbD 7 }

/-- LSR (43_shift_rotate R181). -/
def shiftRight (v : Byte) : Shifted := { result := v >>> 1, carry := v.getLsbD 0 }

/-- ROL with carry-in `c` (43_shift_rotate R182). -/
def rotateLeft (c : Bool) (v : Byte) : Shifted :=
  { result := v <<< 1 ||| (BitVec.ofBool c).setWidth 8, carry := v.getLsbD 7 }

/-- ROR with carry-in `c` (43_shift_rotate R183). -/
def rotateRight (c : Bool) (v : Byte) : Shifted :=
  { result := v >>> 1 ||| (BitVec.ofBool c).setWidth 8 <<< 7, carry := v.getLsbD 0 }

/-- BCC's condition (44_control_flow R197). -/
def Flags.carryClear (p : Flags) : Bool := !p.c
/-- BCS's condition (44_control_flow R198). -/
def Flags.carrySet (p : Flags) : Bool := p.c
/-- BEQ's condition (44_control_flow R199). -/
def Flags.zeroSet (p : Flags) : Bool := p.z
/-- BNE's condition (44_control_flow R200). -/
def Flags.zeroClear (p : Flags) : Bool := !p.z
/-- BMI's condition (44_control_flow R201). -/
def Flags.negativeSet (p : Flags) : Bool := p.n
/-- BPL's condition (44_control_flow R202). -/
def Flags.negativeClear (p : Flags) : Bool := !p.n
/-- BVC's condition (44_control_flow R203). -/
def Flags.overflowClear (p : Flags) : Bool := !p.v
/-- BVS's condition (44_control_flow R204). -/
def Flags.overflowSet (p : Flags) : Bool := p.v

end Sys2Proof.Machine
end

