-- ==== Sys2Proof/Machine/Ports.lean ====
section
/-! DEFINITION. The PPU's eight register ports: what a CPU write or read of 0x2000 to 0x3FFF does inside the PPU
(47_ppu_ports R240 to R259). -/

namespace Sys2Proof.Machine

/-- The eight ports, 0 to 7 (47_ppu_ports R241). -/
inductive Port where
  | ctrl | mask | status | oamAddr | oamData | scroll | vramAddr | data
  deriving DecidableEq, Repr

/-- The port of an address in 0x2000 to 0x3FFF: `a mod 8` (20_memory R67, R68). -/
def portOf (a : Addr) : Port :=
  match a.toNat % 8 with
  | 0 => .ctrl
  | 1 => .mask
  | 2 => .status
  | 3 => .oamAddr
  | 4 => .oamData
  | 5 => .scroll
  | 6 => .vramAddr
  | _ => .data

/-- Write port 4: one OAM byte, then the pointer advances modulo 256 (R247). -/
def Ppu.writeOamData (q : Ppu) (v : Byte) : Ppu :=
  { q with oam := q.oam.write q.oamAddr.toNat v, oamAddr := q.oamAddr + 1 }

/-- Write port 5: the two-write scroll latch (R248). -/
def Ppu.writeScroll (q : Ppu) (v : Byte) : Ppu :=
  if q.scrollToggle then { q with scrollY := v, scrollToggle := false }
  else { q with scrollX := v, scrollToggle := true }

/-- Write port 6: the two-write VRAM address latch; the second byte is added (R254). -/
def Ppu.writeVramAddr (q : Ppu) (v : Byte) : Ppu :=
  if q.addrToggle then { q with vramAddr := q.vramAddr + v.setWidth 16, addrToggle := false }
  else { q with vramAddr := joinBytes v 0, addrToggle := true }

/-- The palette entry a palette address selects, after the sprite-mirror rule (R252). -/
def paletteIndex (a : Addr) : Nat :=
  let i := a.toNat % 0x20
  if i = 0x10 ∨ i = 0x14 ∨ i = 0x18 ∨ i = 0x1C then i - 0x10 else i

/-- Where a port-7 write goes: the first row of R249's table that matches. -/
inductive VramTarget where
  | palette (i : Nat)
  | nametable (off : Nat)
  | pattern (a : Nat)
  deriving DecidableEq, Repr

/-- The routing of a latched VRAM address (20_memory R63, 47_ppu_ports R249). -/
def vramTarget (a : Addr) : VramTarget :=
  if 0x3F00 ≤ a.toNat then .palette (paletteIndex a)
  else if 0x3000 ≤ a.toNat then .nametable (a.toNat - 0x3000)
  else if 0x2000 ≤ a.toNat then .nametable (a.toNat - 0x2000)
  else .pattern a.toNat

/-- A byte above 0x3F aimed at the palette is not a legal colour index (R252). -/
def invalidPaletteByte (a : Addr) (v : Byte) : Bool := decide (0x3F00 ≤ a.toNat ∧ 0x3F < v.toNat)

/-- The byte lands in palette, nametable or pattern RAM (R249, R250, R252, R253). -/
def Ppu.storeData (m : Mirroring) (q : Ppu) (v : Byte) : Ppu :=
  match vramTarget q.vramAddr with
  | .palette i => { q with palette := q.palette.write i v }
  | .nametable off => { q with vram := q.vram.write (ntRemap m off) v }
  | .pattern a => { q with chr := q.chr.write a v }

/-- The address step after a port-7 write (R251). -/
def Ppu.stepVramAddr (q : Ppu) : Ppu :=
  { q with vramAddr := q.vramAddr + (if q.ctrl.getLsbD 2 then 32 else 1) }

/-- `PPU.write(port, v)` for a write that does not fault (R243 to R254). -/
def Ppu.writePort (m : Mirroring) (q : Ppu) (port : Port) (v : Byte) : Ppu :=
  match port with
  | .ctrl => { q with ctrl := v }
  | .mask => { q with mask := v }
  | .status => q
  | .oamAddr => { q with oamAddr := v }
  | .oamData => q.writeOamData v
  | .scroll => q.writeScroll v
  | .vramAddr => q.writeVramAddr v
  | .data => (q.storeData m v).stepVramAddr

/-- `PPU.write(port, v)`: only an invalid palette write faults (R252). -/
def ppuWrite (port : Port) (v : Byte) (s : State) : Res State :=
  if port = .data ∧ invalidPaletteByte s.ppu.vramAddr v then .fault (.invalidPaletteWrite s.ppu.vramAddr v)
  else .next (s.setPpu (s.ppu.writePort s.cart.mirroring port v))

/-- The status register after a read of port 2: vblank cleared, both toggles reset (R255). -/
def Ppu.afterStatusRead (q : Ppu) : Ppu :=
  { q with status := q.status &&& 0x7F, addrToggle := false, scrollToggle := false }

/-- `PPU.read(port)` for the CPU address `a` (R255, R256, R258, R259). -/
def ppuRead (port : Port) (a : Addr) (s : State) : Res (Byte × State) :=
  match port with
  | .status => .next (s.ppu.status, s.setPpu s.ppu.afterStatusRead)
  | .oamData => .next (s.ppu.oam.read s.ppu.oamAddr.toNat, s)
  | .data => .fault (.ppuDataReadRefused a)
  | .ctrl | .mask | .oamAddr | .scroll | .vramAddr => .next (Config.openPort s.draws, s.drawn)

/-- `PPU.transferSprite(index, byte)` (R242). -/
def Ppu.transferSprite (q : Ppu) (index : Nat) (v : Byte) : Ppu := { q with oam := q.oam.write index v }

end Sys2Proof.Machine
end

