-- ==== Sys2Proof/Machine/Ops.lean ====
section
/-! DEFINITION. The bus (20_memory R64, R65), the access primitives (R80 to R84), the interrupt controller
(60_exceptions R342), taking an interrupt and returning from one (R331, 44_control_flow R194), and `CPU.reset()`. -/

namespace Sys2Proof.Machine

/-- Where a CPU read is routed: the first row of R64's table that matches. -/
inductive ReadTarget where
  | ram (i : Nat)
  | port (p : Port)
  | audioStatus
  | input
  | rom
  | unmapped
  deriving DecidableEq, Repr

/-- The read side of the bus decoder (20_memory R64, R66, R67, R69, R76). -/
def readTarget (a : Addr) : ReadTarget :=
  if a.toNat < 0x2000 then .ram (a.toNat % 0x800)
  else if a.toNat < 0x4000 then .port (portOf a)
  else if a.toNat = 0x4015 then .audioStatus
  else if a.toNat = 0x4016 then .input
  else if 0x8000 ≤ a.toNat then .rom
  else .unmapped

/-- Where a CPU write is routed: the first row of R65's table that matches. -/
inductive WriteTarget where
  | ram (i : Nat)
  | port (p : Port)
  | dma
  | input
  | audio (offset : Nat)
  | rom
  | unmapped
  deriving DecidableEq, Repr

/-- The write side of the bus decoder (20_memory R65, R66, R68, R70, R75, R76). -/
def writeTarget (a : Addr) : WriteTarget :=
  if a.toNat < 0x2000 then .ram (a.toNat % 0x800)
  else if a.toNat < 0x4000 then .port (portOf a)
  else if a.toNat = 0x4014 then .dma
  else if a.toNat = 0x4016 then .input
  else if a.toNat < 0x4020 then .audio (a.toNat - 0x4000)
  else if 0x8000 ≤ a.toNat then .rom
  else .unmapped

/-- `BusRead(a)` (20_memory R64, R71, R72). -/
def busRead (a : Addr) (s : State) : Res (Byte × State) :=
  match readTarget a with
  | .ram i => .next (s.ram.read i, s)
  | .port p => ppuRead p a s
  | .audioStatus => .next (Config.audioStatus s.draws, s.drawn.emit .audioStatusRead)
  | .input => .next ((BitVec.ofBool (Config.inputBit s.draws)).setWidth 8, s.drawn.emit .inputRead)
  | .rom => .next (s.cart.byte a, s)
  | .unmapped => .fault (.unmappedAddress (.read a))

/-- `DMA.write(v)`: the page is recorded, the copy pending (49_dma_sequencer R301). -/
def dmaWrite (v : Byte) (s : State) : State := (s.setDmaPage v).setDmaPending true

/-- `BusWrite(a, v)` (20_memory R65, R70, R73, R75). -/
def busWrite (a : Addr) (v : Byte) (s : State) : Res State :=
  match writeTarget a with
  | .ram i => .next (s.setRam (s.ram.write i v))
  | .port p => ppuWrite p v s
  | .dma => .next (dmaWrite v s)
  | .input => .next (s.emit (.inputWrite v))
  | .audio offset => .next (s.emit (.audioWrite offset v))
  | .rom => .next s
  | .unmapped => .fault (.unmappedAddress (.write a v))

/-- `ReadZP16(z)`: a pointer in page zero, the high byte's address wrapped to page zero (20_memory R81). Page zero is
RAM, so the read neither faults nor has an effect (notes/assumptions/12.md). -/
def readZP16 (z : Byte) (s : State) : Addr := joinBytes (s.ram.read (z + 1).toNat) (s.ram.read z.toNat)

/-- `ReadPageWrap16(a)`: the high byte comes from the same page (20_memory R82). -/
def readPageWrap16 (a : Addr) (s : State) : Res (Addr × State) :=
  (busRead a s).andThen fun r =>
    (busRead (joinBytes (hiByte a) (loByte a + 1)) r.2).andThen fun q => .next (joinBytes q.1 r.1, q.2)

/-- The RAM cell of the stack address `0x0100 | S` (10_state R24). -/
def stackCell (sp : Byte) : Nat := 0x100 + sp.toNat

/-- `Push(v)`: write, then decrement, wrapping in page 0x01 (20_memory R83). The stack page is RAM
(41_transfer_stack R140, notes/assumptions/12.md). -/
def push (v : Byte) (s : State) : State := (s.setRam (s.ram.write (stackCell s.sp) v)).setSp (s.sp - 1)

/-- Push a word, high byte first (20_memory R80, R85). -/
def pushWord (w : Addr) (s : State) : State := push (loByte w) (push (hiByte w) s)

/-- The state after `Pull()`: the pointer incremented (20_memory R84). -/
def pulled (s : State) : State := s.setSp (s.sp + 1)

/-- The byte `Pull()` returns, read at the incremented pointer (20_memory R84). -/
def pullByte (s : State) : Byte := s.ram.read (stackCell (s.sp + 1))

/-- `assertNmi()` (60_exceptions R342). -/
def assertNmi (s : State) : State := s.setNmi true
/-- `deassertNmi()` (60_exceptions R342). -/
def deassertNmi (s : State) : State := s.setNmi false
/-- `assertIrq()` (60_exceptions R342). -/
def assertIrq (s : State) : State := s.setIrq true
/-- `deassertIrq()` (60_exceptions R342). -/
def deassertIrq (s : State) : State := s.setIrq false

/-- Taking an interrupt: the break flag is written, the return address and the status are pushed, interrupt-disable
is set and the pc goes to the vector's word. NMI and IRQ clear the break flag and save the pc (60_exceptions R331);
BRK sets it and saves `pc0 + 2` (44_control_flow R195). -/
def takeInterrupt (brk : Bool) (ret vector : Addr) (s : State) : State :=
  let s1 := s.setP { s.p with b := brk }
  let s2 := push s1.p.toByte (pushWord ret s1)
  (s2.setP { s2.p with i := true }).setPc (s2.cart.vector vector)

/-- Returning from an interrupt: the status, then the pc, low byte first, with no increment
(44_control_flow R194, 60_exceptions R337). -/
def returnFromInterrupt (s : State) : State :=
  let s1 := (pulled s).setP (s.p.pulled (pullByte s))
  let s2 := pulled s1
  (pulled s2).setPc (joinBytes (pullByte s2) (pullByte s1))

/-- `ServiceNmi()` (60_exceptions R332). -/
def serviceNmi (s : State) : State := deassertNmi (takeInterrupt false s.pc Config.nmiVector s)

/-- `ServiceIrq()` (60_exceptions R333). -/
def serviceIrq (s : State) : State := deassertIrq (takeInterrupt false s.pc Config.irqVector s)

/-- The poll at the start of `CPU.run()`: NMI first, then IRQ where interrupt-disable is clear
(60_exceptions R330, R334). -/
def pollInterrupts (s : State) : State :=
  let s1 := if s.nmi then serviceNmi s else s
  if s1.irq && !s1.p.i then serviceIrq s1 else s1

/-- `CPU.reset()`: the status pattern `P0` and the reset vector; nothing else changes (70_reset_and_hazards R352). -/
def cpuReset (s : State) : State := (s.setP s.env.p0).setPc (s.cart.vector Config.resetVector)

/-- `FetchByte()` (30_encoding R101). -/
def fetchByte (s : State) : Res (Byte × State) :=
  (busRead s.pc s).andThen fun r => .next (r.1, r.2.setPc (r.2.pc + 1))

end Sys2Proof.Machine
end

