-- ==== Sys2Proof/Machine/Operands.lean ====
section
/-! DEFINITION. Every operand form: effective addresses, page crossing, operand reads and stores, the
read-modify-write access, jump and branch targets (30_encoding R103 to R117). -/

namespace Sys2Proof.Machine

/-- The effective address of a memory form (30_encoding R107 to R115). -/
def effAddr (m : AddrMode) (s : State) : Addr :=
  match m with
  | .zp z => z.setWidth 16
  | .zpX z => (z + s.x).setWidth 16
  | .zpY z => (z + s.y).setWidth 16
  | .abs w => w
  | .absX w => w + s.x.setWidth 16
  | .absY w => w + s.y.setWidth 16
  | .indX z => readZP16 (z + s.x) s
  | .indY z => readZP16 z s + s.y.setWidth 16

/-- `crossed`: the index addition changed the high byte (30_encoding R111, R112, R115); false in every other mode. -/
def crossed (m : AddrMode) (s : State) : Bool :=
  match m with
  | .absX w | .absY w => decide (hiByte (effAddr m s) ≠ hiByte w)
  | .indY z => decide (hiByte (effAddr m s) ≠ hiByte (readZP16 z s))
  | .zp _ | .zpX _ | .zpY _ | .abs _ | .indX _ => false

/-- Read the byte at a memory form's effective address, once (30_encoding R117). -/
def readMem (m : AddrMode) (s : State) : Res (Byte × State) := busRead (effAddr m s) s

/-- `Operand()` of a reading instruction (30_encoding R106, R117). -/
def readOperand (o : Operand) (s : State) : Res (Byte × State) :=
  match o with
  | .imm v => .next (v, s)
  | .mem m => readMem m s

/-- `Store(v)` to a memory form's effective address (30_encoding R117). -/
def storeMem (m : AddrMode) (v : Byte) (s : State) : Res State := busWrite (effAddr m s) v s

/-- A read-modify-write: exactly one read of the effective address, then one write of the result to the same address
(20_memory R87); the byte written comes with the new state. -/
def modifyMem {α : Type} (m : AddrMode) (f : Byte → α) (out : α → Byte) (s : State) : Res (α × State) :=
  (readMem m s).andThen fun r =>
    (busWrite (effAddr m s) (out (f r.1)) r.2).andThen fun s1 => .next (f r.1, s1)

/-- The target of JMP: the operand word, or the page-wrapped pointer behind it (30_encoding R110, R113). -/
def jumpTarget (t : JumpOperand) (s : State) : Res (Addr × State) :=
  match t with
  | .abs w => .next (w, s)
  | .ind w => readPageWrap16 w s

/-- The target of a branch whose displacement is `d`, from the next instruction's address (30_encoding R116). -/
def branchTarget (d : Byte) (s : State) : Addr := s.pc + d.signExtend 16

/-- A branch target on another page than the next instruction (30_encoding R116). -/
def branchCrossed (d : Byte) (s : State) : Bool := decide (hiByte (branchTarget d s) ≠ hiByte s.pc)

end Sys2Proof.Machine
end

