-- ==== Sys2Proof/Machine/Arith.lean ====
section
/-! DEFINITION. Arithmetic, logic, compare, increment and decrement (42_arithmetic_logic R160 to R176). -/

namespace Sys2Proof.Machine

/-- ADC: `AddWithCarry(M)` (R161). -/
def execAdc (o : Operand) (s : State) : Res State :=
  (readOperand o s).andThen fun r => .next (r.2.addWithCarry r.1)

/-- SBC: `AddWithCarry(M ^ 0xFF)` (R162). -/
def execSbc (o : Operand) (s : State) : Res State :=
  (readOperand o s).andThen fun r => .next (r.2.addWithCarry (r.1 ^^^ 0xFF))

/-- A result for the accumulator with its N and Z. -/
def State.setResultA (s : State) (v : Byte) : State := (s.setA v).setNZ v

/-- AND (R163). -/
def execAnd (o : Operand) (s : State) : Res State :=
  (readOperand o s).andThen fun r => .next (r.2.setResultA (s.a &&& r.1))

/-- ORA (R164). -/
def execOra (o : Operand) (s : State) : Res State :=
  (readOperand o s).andThen fun r => .next (r.2.setResultA (s.a ||| r.1))

/-- EOR (R165). -/
def execEor (o : Operand) (s : State) : Res State :=
  (readOperand o s).andThen fun r => .next (r.2.setResultA (s.a ^^^ r.1))

/-- BIT: N and V from the memory byte, Z from the AND (R166). -/
def execBit (m : AddrMode) (s : State) : Res State :=
  (readMem m s).andThen fun r => .next (r.2.bitTest r.1)

/-- CMP: `Compare(A, M)` (R167). -/
def execCmp (o : Operand) (s : State) : Res State :=
  (readOperand o s).andThen fun r => .next (r.2.compare s.a r.1)

/-- CPX: `Compare(X, M)` (R168). -/
def execCpx (o : Operand) (s : State) : Res State :=
  (readOperand o s).andThen fun r => .next (r.2.compare s.x r.1)

/-- CPY: `Compare(Y, M)` (R169). -/
def execCpy (o : Operand) (s : State) : Res State :=
  (readOperand o s).andThen fun r => .next (r.2.compare s.y r.1)

/-- INC memory: one read, one write, N and Z of the result (R170). -/
def execInc (m : AddrMode) (s : State) : Res State :=
  (modifyMem m (· + 1) id s).andThen fun r => .next (r.2.setNZ r.1)

/-- DEC memory (R171). -/
def execDec (m : AddrMode) (s : State) : Res State :=
  (modifyMem m (· - 1) id s).andThen fun r => .next (r.2.setNZ r.1)

/-- INX (R172). -/
def execInx (s : State) : Res State := .next ((s.setX (s.x + 1)).setNZ (s.x + 1))
/-- INY (R173). -/
def execIny (s : State) : Res State := .next ((s.setY (s.y + 1)).setNZ (s.y + 1))
/-- DEX (R174). -/
def execDex (s : State) : Res State := .next ((s.setX (s.x - 1)).setNZ (s.x - 1))
/-- DEY (R175). -/
def execDey (s : State) : Res State := .next ((s.setY (s.y - 1)).setNZ (s.y - 1))

end Sys2Proof.Machine
end

