-- ==== Sys2Proof/Machine/Control.lean ====
section
/-! DEFINITION. Control transfer instructions (44_control_flow R190 to R204). The pc they start from is past the whole
instruction (00_scope R10). -/

namespace Sys2Proof.Machine

/-- JMP: `PC <- EA` (R190, R191). -/
def execJmp (t : JumpOperand) (s : State) : Res State :=
  (jumpTarget t s).andThen fun r => .next (r.2.setPc r.1)

/-- JSR: the address of the instruction's last byte is pushed, high byte first (R192). -/
def execJsr (w : Addr) (s : State) : Res State := .next ((pushWord (s.pc - 1) s).setPc w)

/-- RTS: the pulled word plus one (R193). -/
def execRts (s : State) : Res State :=
  .next ((pulled (pulled s)).setPc (joinBytes (pullByte (pulled s)) (pullByte s) + 1))

/-- RTI (R194). -/
def execRti (s : State) : Res State := .next (returnFromInterrupt s)

/-- BRK: the break flag set, `pc0 + 2` saved, the IRQ vector (R195); the pc is already at `pc0 + 1`. -/
def execBrk (s : State) : Res State := .next (takeInterrupt true (s.pc + 1) Config.irqVector s)

/-- A conditional branch: the target when the condition holds (R196). -/
def branchIf (cond : Bool) (d : Byte) (s : State) : Res State :=
  .next (if cond then s.setPc (branchTarget d s) else s)

/-- BCC (R197). -/
def execBcc (d : Byte) (s : State) : Res State := branchIf s.p.carryClear d s
/-- BCS (R198). -/
def execBcs (d : Byte) (s : State) : Res State := branchIf s.p.carrySet d s
/-- BEQ (R199). -/
def execBeq (d : Byte) (s : State) : Res State := branchIf s.p.zeroSet d s
/-- BNE (R200). -/
def execBne (d : Byte) (s : State) : Res State := branchIf s.p.zeroClear d s
/-- BMI (R201). -/
def execBmi (d : Byte) (s : State) : Res State := branchIf s.p.negativeSet d s
/-- BPL (R202). -/
def execBpl (d : Byte) (s : State) : Res State := branchIf s.p.negativeClear d s
/-- BVC (R203). -/
def execBvc (d : Byte) (s : State) : Res State := branchIf s.p.overflowClear d s
/-- BVS (R204). -/
def execBvs (d : Byte) (s : State) : Res State := branchIf s.p.overflowSet d s

end Sys2Proof.Machine
end

