-- ==== Sys2Proof/Machine/FlagOps.lean ====
section
/-! DEFINITION. Flag instructions and NOP (45_flags_nop R210 to R217). -/

namespace Sys2Proof.Machine

/-- CLC (R210). -/
def execClc (s : State) : Res State := .next (s.setC false)
/-- SEC (R211). -/
def execSec (s : State) : Res State := .next (s.setC true)
/-- CLI (R212). -/
def execCli (s : State) : Res State := .next (s.setP { s.p with i := false })
/-- SEI (R213). -/
def execSei (s : State) : Res State := .next (s.setP { s.p with i := true })
/-- CLD (R214). -/
def execCld (s : State) : Res State := .next (s.setP { s.p with d := false })
/-- SED (R215). -/
def execSed (s : State) : Res State := .next (s.setP { s.p with d := true })
/-- CLV (R216). -/
def execClv (s : State) : Res State := .next (s.setP { s.p with v := false })
/-- NOP: the pc has advanced, nothing else (R217). -/
def execNop (s : State) : Res State := .next s

end Sys2Proof.Machine
end

