-- ==== Sys2Proof/Machine/LoadStore.lean ====
section
/-! DEFINITION. Load and store instructions (40_load_store R130 to R136). -/

namespace Sys2Proof.Machine

/-- LDA: `A <- M; SetNZ(A)` (R131). -/
def execLda (o : Operand) (s : State) : Res State :=
  (readOperand o s).andThen fun r => .next ((r.2.setA r.1).setNZ r.1)

/-- LDX: `X <- M; SetNZ(X)` (R132). -/
def execLdx (o : Operand) (s : State) : Res State :=
  (readOperand o s).andThen fun r => .next ((r.2.setX r.1).setNZ r.1)

/-- LDY: `Y <- M; SetNZ(Y)` (R133). -/
def execLdy (o : Operand) (s : State) : Res State :=
  (readOperand o s).andThen fun r => .next ((r.2.setY r.1).setNZ r.1)

/-- STA: `BusWrite(EA, A)` (R134). -/
def execSta (m : AddrMode) (s : State) : Res State := storeMem m s.a s

/-- STX: `BusWrite(EA, X)` (R135). -/
def execStx (m : AddrMode) (s : State) : Res State := storeMem m s.x s

/-- STY: `BusWrite(EA, Y)` (R136). -/
def execSty (m : AddrMode) (s : State) : Res State := storeMem m s.y s

end Sys2Proof.Machine
end

