-- ==== Sys2Proof/Machine/Shift.lean ====
section
/-! DEFINITION. Shift and rotate instructions (43_shift_rotate R180 to R184). -/

namespace Sys2Proof.Machine

/-- The flags of a shift: C the bit shifted out, N and Z of the result (R184). -/
def State.setShiftFlags (s : State) (f : Shifted) : State := (s.setC f.carry).setNZ f.result

/-- A shift of the accumulator, or one read and one write of memory (R184). -/
def shiftOperand (f : Byte → Shifted) (o : ShiftOperand) (s : State) : Res State :=
  match o with
  | .acc => .next ((s.setA (f s.a).result).setShiftFlags (f s.a))
  | .mem m => (modifyMem m f Shifted.result s).andThen fun r => .next (r.2.setShiftFlags r.1)

/-- ASL (R180). -/
def execAsl (o : ShiftOperand) (s : State) : Res State := shiftOperand shiftLeft o s
/-- LSR (R181). -/
def execLsr (o : ShiftOperand) (s : State) : Res State := shiftOperand shiftRight o s
/-- ROL through carry (R182). -/
def execRol (o : ShiftOperand) (s : State) : Res State := shiftOperand (rotateLeft s.p.c) o s
/-- ROR through carry (R183). -/
def execRor (o : ShiftOperand) (s : State) : Res State := shiftOperand (rotateRight s.p.c) o s

end Sys2Proof.Machine
end

