-- ==== Sys2Proof/Machine/Transfer.lean ====
section
/-! DEFINITION. Register transfer and stack instructions (41_transfer_stack R140 to R150). -/

namespace Sys2Proof.Machine

/-- TAX (R141). -/
def execTax (s : State) : Res State := .next ((s.setX s.a).setNZ s.a)
/-- TAY (R142). -/
def execTay (s : State) : Res State := .next ((s.setY s.a).setNZ s.a)
/-- TXA (R143). -/
def execTxa (s : State) : Res State := .next ((s.setA s.x).setNZ s.x)
/-- TYA (R144). -/
def execTya (s : State) : Res State := .next ((s.setA s.y).setNZ s.y)
/-- TSX (R145). -/
def execTsx (s : State) : Res State := .next ((s.setX s.sp).setNZ s.sp)
/-- TXS, the only transfer that writes no flag (R146). -/
def execTxs (s : State) : Res State := .next (s.setSp s.x)
/-- PHA (R147). -/
def execPha (s : State) : Res State := .next (push s.a s)
/-- PHP: the pushed byte has bits 5 and 4 set, the stored flags stay (R148). -/
def execPhp (s : State) : Res State := .next (push (s.p.toByte ||| 0x30) s)
/-- PLA: `A <- Pull(); SetNZ(A)` (R149). -/
def execPla (s : State) : Res State := .next (((pulled s).setA (pullByte s)).setNZ (pullByte s))
/-- PLP (R150). -/
def execPlp (s : State) : Res State := .next ((pulled s).setP (s.p.pulled (pullByte s)))

end Sys2Proof.Machine
end

