-- ==== Sys2Proof/Machine/Undocumented.lean ====
section
/-! DEFINITION. The undocumented opcodes and the illegal opcode bytes (46_undocumented R220 to R231). -/

namespace Sys2Proof.Machine

/-- *NOP: the operand's address is neither read nor written, and no form of it is indirect (R221). -/
def execNopU (_op : Byte) (_o : NopOperand) (s : State) : Res State := .next s

/-- *LAX: `A <- M; X <- M; SetNZ(M)` (R222). -/
def execLax (m : AddrMode) (s : State) : Res State :=
  (readMem m s).andThen fun r => .next (((r.2.setA r.1).setX r.1).setNZ r.1)

/-- *SAX: `BusWrite(EA, A & X)` (R223). -/
def execSax (m : AddrMode) (s : State) : Res State := storeMem m (s.a &&& s.x) s

/-- *SBC 0xEB: `AddWithCarry(nn ^ 0xFF)` (R224). -/
def execSbcU (v : Byte) (s : State) : Res State := .next (s.addWithCarry (v ^^^ 0xFF))

/-- *DCP: DEC, then CMP (R225). -/
def execDcp (m : AddrMode) (s : State) : Res State :=
  (modifyMem m (· - 1) id s).andThen fun r => .next (r.2.compare s.a r.1)

/-- *ISB: INC, then SBC (R226). -/
def execIsb (m : AddrMode) (s : State) : Res State :=
  (modifyMem m (· + 1) id s).andThen fun r => .next (r.2.addWithCarry (r.1 ^^^ 0xFF))

/-- The carry of a shift, then a logical result in the accumulator with its N and Z (R227 to R229). -/
def State.setCarryThenA (s : State) (c : Bool) (v : Byte) : State := ((s.setC c).setA v).setNZ v

/-- *SLO: ASL, then ORA (R227). -/
def execSlo (m : AddrMode) (s : State) : Res State :=
  (modifyMem m shiftLeft Shifted.result s).andThen fun r => .next (r.2.setCarryThenA r.1.carry (s.a ||| r.1.result))

/-- *RLA: ROL, then AND (R228). -/
def execRla (m : AddrMode) (s : State) : Res State :=
  (modifyMem m (rotateLeft s.p.c) Shifted.result s).andThen fun r =>
    .next (r.2.setCarryThenA r.1.carry (s.a &&& r.1.result))

/-- *SRE: LSR, then EOR (R229). -/
def execSre (m : AddrMode) (s : State) : Res State :=
  (modifyMem m shiftRight Shifted.result s).andThen fun r => .next (r.2.setCarryThenA r.1.carry (s.a ^^^ r.1.result))

/-- *RRA: ROR, then ADC; the carry-in of the addition is the bit the rotate shifted out (R230). -/
def execRra (m : AddrMode) (s : State) : Res State :=
  (modifyMem m (rotateRight s.p.c) Shifted.result s).andThen fun r =>
    .next ((r.2.setC r.1.carry).addWithCarry r.1.result)

/-- An opcode byte with no table entry: the machine faults with the byte and the address it was fetched from; the pc
is one past it (R231, 60_exceptions R321). -/
def execIllegal (op : Byte) (s : State) : Res State := .fault (.illegalOpcode op (s.pc - 1))

end Sys2Proof.Machine
end

