-- ==== Sys2Proof/Machine/Cycles.lean ====
section
/-! DEFINITION. The cycle count `CPU.run()` returns (30_encoding R118). -/

namespace Sys2Proof

/-- `BaseCycles(op)` (00_scope R6). -/
def Timing.baseOf (t : Timing) (op : Byte) : Nat := t.base.getD op.toNat 0

/-- `PagePenalty(op)` (00_scope R6). -/
def Timing.penaltyOf (t : Timing) (op : Byte) : Bool := t.penalty.getD op.toNat false

end Sys2Proof

namespace Sys2Proof.Machine

/-- The memory form of an instruction, where it has one. -/
def memForm (i : Instr) : Option AddrMode :=
  match i with
  | .lda (.mem m) | .ldx (.mem m) | .ldy (.mem m) => some m
  | .adc (.mem m) | .sbc (.mem m) | .and (.mem m) | .ora (.mem m) | .eor (.mem m) => some m
  | .cmp (.mem m) | .cpx (.mem m) | .cpy (.mem m) => some m
  | .asl (.mem m) | .lsr (.mem m) | .rol (.mem m) | .ror (.mem m) | .nopU _ (.mem m) => some m
  | .sta m | .stx m | .sty m | .bit m | .inc m | .dec m => some m
  | .lax m | .sax m | .dcp m | .isb m | .slo m | .rla m | .sre m | .rra m => some m
  | _ => none

/-- A branch's displacement and whether it is taken (44_control_flow R196). -/
def branchForm (i : Instr) (p : Flags) : Option (Byte × Bool) :=
  match i with
  | .bcc d => some (d, p.carryClear)
  | .bcs d => some (d, p.carrySet)
  | .beq d => some (d, p.zeroSet)
  | .bne d => some (d, p.zeroClear)
  | .bmi d => some (d, p.negativeSet)
  | .bpl d => some (d, p.negativeClear)
  | .bvc d => some (d, p.overflowClear)
  | .bvs d => some (d, p.overflowSet)
  | _ => none

/-- The page-cross cycle of the three indexed modes, where the opcode pays it (30_encoding R118). -/
def pageCycles (t : Timing) (op : Byte) (i : Instr) (s : State) : Nat :=
  match memForm i with
  | some m => if t.penaltyOf op && crossed m s then 1 else 0
  | none => 0

/-- The branch cycles: one when taken, one more when the target is on another page (30_encoding R118). -/
def branchCycles (i : Instr) (s : State) : Nat :=
  match branchForm i s.p with
  | some (d, true) => if branchCrossed d s then 2 else 1
  | some (_, false) | none => 0

/-- The count of one instruction under a timing, from the state its Operation starts in: the pc past the instruction
(30_encoding R118, 00_scope R10). -/
def countOf (t : Timing) (i : Instr) (s : State) : Nat :=
  match i.opcode with
  | some op => t.baseOf op + pageCycles t op i s + branchCycles i s
  | none => 0

/-- The count of one instruction under the timing of the run. -/
def cyclesOf (i : Instr) (s : State) : Nat := countOf s.env.timing i s

end Sys2Proof.Machine
end

