-- ==== Sys2Proof/Machine/Dma.lean ====
section
/-! DEFINITION. The DMA unit's page copy (49_dma_sequencer R300 to R305). -/

namespace Sys2Proof.Machine

/-- The 256 bytes of a RAM page, read from RAM directly and not through the bus (49_dma_sequencer R302). -/
def pageBytes (ram : Memory) (page : Byte) : List Byte :=
  (List.range 256).map fun i => ram.read (page.toNat * 256 + i)

/-- Transfer bytes to OAM from position `i` on (47_ppu_ports R242). -/
def Ppu.transferFrom (q : Ppu) : Nat → List Byte → Ppu
  | _, [] => q
  | i, v :: vs => (q.transferSprite i v).transferFrom (i + 1) vs

/-- `DMA.run()`: copy the page to OAM 0 to 255 and clear the pending flag; a page outside RAM faults before any byte
is copied (49_dma_sequencer R302). -/
def dmaRun (s : State) : Res State :=
  if 0x07FF < s.dmaPage.toNat * 256 then .fault (.dmaSourceOutOfRange s.dmaPage)
  else .next ((s.setPpu (s.ppu.transferFrom 0 (pageBytes s.ram s.dmaPage))).setDmaPending false)

/-- The DMA part of a machine step: with a copy pending it runs and the step is charged the stall
(49_dma_sequencer R305, R306). -/
def dmaStep (s : State) : Res State :=
  if s.dmaPending then (dmaRun s).andThen fun s1 => .next (s1.setCycles s.env.timing.dmaStall)
  else .next (s.setCycles 0)

end Sys2Proof.Machine
end

