-- ==== Sys2Proof/Machine/Render.lean ====
section
/-! DEFINITION. The PPU's scanline state machine: `PPU.run(n)`, the events of a scanline, background rows and the
frame record (48_ppu_rendering R270 to R288). -/

namespace Sys2Proof.Machine

/-- Background tile `c` of screen tile row `r` (48_ppu_rendering R280, R281). -/
def Ppu.tileAt (m : Mirroring) (q : Ppu) (r c : Nat) : Tile :=
  let nt0 := (q.ctrl &&& 3).toNat
  let tx := (q.scrollX.toNat + (nt0 % 2) * 256) / 8 + c
  let ty := (q.scrollY.toNat + (nt0 / 2) * 240) / 8 + r
  let nt := (tx / 32) % 2 + 2 * ((ty / 30) % 2)
  let cx := tx % 32
  let cy := ty % 30
  let id := q.vram.read (ntRemap m (nt * 0x400 + cy * 32 + cx))
  let attr := q.vram.read (ntRemap m (nt * 0x400 + 0x3C0 + (cy / 4) * 8 + cx / 4))
  let block := (cx % 4) / 2 + 2 * ((cy % 4) / 2)
  { pixels := pattern q.chr (patternTable (q.ctrl.getLsbD 4) + 16 * id.toNat)
    paletteId := (attr >>> (2 * block)).setWidth 2
    scrollX := q.scrollX
    scrollY := q.scrollY }

/-- `BuildRow(s)`: 32 tiles, left to right, appended to the background (48_ppu_rendering R280). -/
def Ppu.buildRow (m : Mirroring) (q : Ppu) (s : Nat) : Ppu :=
  { q with background := q.background ++ (List.range 32).map (q.tileAt m (s / 8 - 1)) }

/-- When a row is built (48_ppu_rendering R272, R279). -/
def Ppu.rowDue (q : Ppu) : Bool :=
  decide (q.scanline ≤ 240 ∧ q.scanline % 8 = 0 ∧ q.scrollY.toNat ≤ 240)

/-- What a drawn hit adds to the status register: bit 6 (10_state R43). -/
def hitBit (draw : Nat) : Byte := if Config.sprite0Hit draw then 0x40 else 0x00

/-- The hit bit set, where it was drawn. -/
def Ppu.withHit (q : Ppu) (bit : Byte) : Ppu := { q with status := q.status ||| bit }

/-- `Sprite0HitSet`, evaluated once per scanline advance: never, or a draw on scanlines 1 to 240
(48_ppu_rendering R278). -/
def sprite0HitStep (s : State) : State :=
  match s.env.sprite0Hit with
  | .never => s
  | .any =>
    if 1 ≤ s.ppu.scanline ∧ s.ppu.scanline ≤ 240 then
      (s.setPpu (s.ppu.withHit (hitBit s.draws))).drawn
    else s

/-- A background row where one is due (48_ppu_rendering R272). -/
def rowStep (s : State) : State :=
  if s.ppu.rowDue then s.setPpu (s.ppu.buildRow s.cart.mirroring s.ppu.scanline) else s

/-- The vblank bit set (10_state R43). -/
def Ppu.inVblank (q : Ppu) : Ppu := { q with status := q.status ||| 0x80 }

/-- `VblankStart()`: the vblank bit, and the NMI where control bit 7 enables it (48_ppu_rendering R276). -/
def vblankStart (s : State) : State :=
  let s1 := s.setPpu s.ppu.inVblank
  if s.ppu.ctrl.getLsbD 7 then assertNmi s1 else s1

/-- `FrameRecord()` (48_ppu_rendering R288). -/
def Ppu.frameRecord (q : Ppu) : Frame :=
  { background := q.background, palette := paletteSnapshot q.palette, sprites := q.sprites }

/-- The PPU part of `FrameWrap()`: scanline 0, vblank and sprite-0 hit cleared, the background emptied and the
sprites evaluated (48_ppu_rendering R277). -/
def Ppu.wrapped (q : Ppu) : Ppu :=
  { q with
    scanline := 0, status := q.status &&& 0x3F, background := []
    sprites := evaluateSprites q.oam q.chr q.ctrl }

/-- `FrameWrap()`: the NMI is deasserted and the frame, as it is at the wrap, is emitted (48_ppu_rendering R277). -/
def frameWrap (s : State) : State := ((deassertNmi s).setPpu s.ppu.wrapped).emit (.frame s.ppu.frameRecord)

/-- Steps 3 and 4 of `ScanlineEvents()` (48_ppu_rendering R272). -/
def boundaryStep (s : State) : State :=
  if s.ppu.scanline = 241 then vblankStart s
  else if s.ppu.scanline = 262 then frameWrap s
  else s

/-- `ScanlineEvents()`, in the order of its four steps (48_ppu_rendering R272). -/
def scanlineEvents (s : State) : State := boundaryStep (rowStep (sprite0HitStep s))

/-- A scanline's dots are subtracted and the scanline advances (48_ppu_rendering R271). -/
def Ppu.nextScanline (q : Ppu) : Ppu :=
  { q with cycle := q.cycle - Config.dotsPerScanline, scanline := q.scanline + 1 }

/-- One iteration of the run loop (48_ppu_rendering R271). -/
def scanlineAdvance (s : State) : State := scanlineEvents (s.setPpu s.ppu.nextScanline)

/-- The loop `while ppu.cycle >= 341`, for at most `fuel` iterations (48_ppu_rendering R271). -/
def ppuLoop : Nat → State → State
  | 0, s => s
  | fuel + 1, s => if Config.dotsPerScanline ≤ s.ppu.cycle then ppuLoop fuel (scanlineAdvance s) else s

/-- `PPU.run(n)`: the loop runs until the cycle is below 341, which takes `(cycle + n) / 341` iterations
(48_ppu_rendering R271, notes/assumptions/13.md). -/
def ppuRun (n : Nat) (s : State) : State :=
  ppuLoop ((s.ppu.cycle + n) / Config.dotsPerScanline) (s.setPpu { s.ppu with cycle := s.ppu.cycle + n })

end Sys2Proof.Machine
end

