-- ==== Sys2Proof/Machine/Sequencer.lean ====
section
/-! DEFINITION. The parts of one machine step around the Operation of its instruction: the environment's move, the DMA,
the interrupt poll, the fetch, and the PPU's dots (49_dma_sequencer R306, R307, 60_exceptions R330); and the placing of
an instruction where the next step fetches it. -/

namespace Sys2Proof.Machine

/-- The `ExternalIrq` move between two machine steps, where it is not `never`; before the first step there is none
(60_exceptions R327, 49_dma_sequencer R307). -/
def environmentMove (s : State) : State :=
  match s.stepped, s.env.externalIrq with
  | false, _ | true, .never => s
  | true, .any => (s.setIrq ((Config.externalIrq s.draws).getD s.irq)).drawn

/-- The step up to the fetch: no step once faulted, the environment's move, the DMA, the interrupt poll
(49_dma_sequencer R306, 60_exceptions R320, R330). -/
def beginStep (s : State) : Res State :=
  match s.faulted with
  | some f => .fault f
  | none => (dmaStep (environmentMove s)).andThen fun s1 => .next (pollInterrupts s1)

/-- Fetch `n` operand bytes in ascending address order, at most two (30_encoding R101, R103); bytes the row has not
are 0 and not fetched. -/
def fetchOperands (n : Nat) (s : State) : Res ((Byte × Byte) × State) :=
  match n with
  | 0 => .next ((0, 0), s)
  | 1 => (fetchByte s).andThen fun r => .next ((r.1, 0), r.2)
  | _ => (fetchByte s).andThen fun r => (fetchByte r.2).andThen fun q => .next ((r.1, q.1), q.2)

/-- Fetch and decode one instruction; the pc ends past it (30_encoding R101, R102, R123). -/
def fetchInstr (s : State) : Res (Instr × State) :=
  (fetchByte s).andThen fun r =>
    (fetchOperands (operandCount r.1) r.2).andThen fun q => .next (instrOf r.1 q.1.1 q.1.2, q.2)

/-- The step after the Operation: the count of the instruction, from the state its Operation started in, is added to
the stall, and the PPU runs three dots for each cycle (49_dma_sequencer R306). -/
def endStep (i : Instr) (before after : State) : State :=
  let c := before.cycles + cyclesOf i before
  ppuRun (Config.dotsPerCycle * c) ((after.setCycles c).setStepped true)

/-- A RAM or ROM cell at a CPU address gets a byte; at any other address nothing happens. Not an access of the machine:
a load from outside (notes/assumptions/9.md). -/
def placeByte (a : Addr) (v : Byte) (s : State) : State :=
  match readTarget a with
  | .ram i => s.setRam (s.ram.write i v)
  | .rom => { s with cart := { s.cart with prg := s.cart.prg.write (romOffset s.cart.banks a) v } }
  | .port _ | .audioStatus | .input | .unmapped => s

/-- Bytes can be placed at the address. -/
def placeable (a : Addr) : Bool :=
  match readTarget a with
  | .ram _ | .rom => true
  | .port _ | .audioStatus | .input | .unmapped => false

/-- Place bytes at rising addresses. -/
def placeBytes : Addr → List Byte → State → State
  | _, [], s => s
  | a, v :: vs, s => placeBytes (a + 1) vs (placeByte a v s)

/-- The state whose next step fetches at its pc: no fault mark, no interrupt or environment move that would divert the
fetch, no DMA that would fault, and a pc where three bytes can be placed; where it is not, the pc goes to RAM. -/
def undiverted (s : State) : State :=
  { s with
    faulted := none, nmi := false, irq := s.irq && s.p.i
    dmaPending := s.dmaPending && decide (s.dmaPage.toNat < 8)
    env := { s.env with externalIrq := .never }
    pc := if placeable s.pc && placeable (s.pc + 1) && placeable (s.pc + 2) then s.pc else 0x0000 }

/-- The bytes of a table word stood where the next step fetches its instruction. -/
def placeWord (s : State) (nbits w : Nat) : State :=
  placeBytes (undiverted s).pc (tableWordBytes nbits w) (undiverted s)

end Sys2Proof.Machine
end

