-- ==== Sys2Proof/Machine/Step.lean ====
section
/-! DEFINITION. One machine step (49_dma_sequencer R306), and an instruction placed for the next one. -/

namespace Sys2Proof.Machine

/-- `MachineStep()`: DMA if pending, then `CPU.run()` (interrupt poll, fetch, Operation), then `PPU.run`. -/
def step (s : State) : Host.Outcome State Fault Refusal :=
  Res.andThen (beginStep s) fun s1 =>
    Res.andThen (fetchInstr s1) fun r =>
      Res.andThen (exec r.1 r.2) fun s2 => .next (endStep r.1 r.2 s2)

/-- The state with the instruction of a table word stored where `step` fetches its next instruction
(notes/assumptions/9.md). -/
def State.withFetchWord (s : State) (nbits w : Nat) : State := placeWord s nbits w

end Sys2Proof.Machine
end

