-- ==== Sys2Proof/Safety.lean ====
section
/-! DEFINITION. The terms claims use: which accesses answer, what stands in code memory, the invariant of the machine,
and what a safe step is. -/

namespace Sys2Proof.Machine

/-- A CPU read of the address answers a byte: it is neither unmapped nor PPU port 7
(20_memory R64, 47_ppu_ports R259). -/
def readable (a : Addr) : Bool :=
  match readTarget a with
  | .port .data | .unmapped => false
  | .port _ | .ram _ | .audioStatus | .input | .rom => true

/-- A CPU write of the byte to the address answers: it is not unmapped, and not an invalid palette byte
(20_memory R65, 47_ppu_ports R252). -/
def writable (a : Addr) (v : Byte) (s : State) : Bool :=
  match writeTarget a with
  | .port .data => !invalidPaletteByte s.ppu.vramAddr v
  | .unmapped => false
  | .port _ | .ram _ | .dma | .input | .audio _ | .rom => true

/-- A reading operand answers: it is immediate, or its effective address is readable. -/
def operandReadable (o : Operand) (s : State) : Bool :=
  match o with
  | .imm _ => true
  | .mem m => readable (effAddr m s)

/-- A shift's operand answers. -/
def shiftReadable (o : ShiftOperand) (s : State) : Bool :=
  match o with
  | .acc => true
  | .mem m => readable (effAddr m s)

/-- A jump's target answers: it is absolute, or both bytes of its pointer are readable (30_encoding R113). -/
def jumpReadable (t : JumpOperand) : Bool :=
  match t with
  | .abs _ => true
  | .ind w => readable w && readable (joinBytes (hiByte w) (loByte w + 1))

/-- The byte of RAM or program ROM at a CPU address; none at any other address. -/
def codeByte (s : State) (a : Addr) : Option Byte :=
  match readTarget a with
  | .ram i => some (s.ram.read i)
  | .rom => some (s.cart.byte a)
  | .port _ | .audioStatus | .input | .unmapped => none

/-- The bytes stand in RAM or program ROM from the address on, which wraps at the top (30_encoding R101). -/
def holdsCode (s : State) : Addr → List Byte → Prop
  | _, [] => True
  | a, v :: vs => codeByte s a = some v ∧ holdsCode s (a + 1) vs

/-- The bytes are fetched over the bus, one read for each at the pc, which goes on by one; the reads lead from `s` to `t`
(30_encoding R101, 20_memory R91). -/
def FetchesBytes : List Byte → State → State → Prop
  | [], s, t => t = s
  | v :: vs, s, t => ∃ u, busRead s.pc s = .next (v, u) ∧ FetchesBytes vs (u.setPc (u.pc + 1)) t

/-- Every stored byte is a legal 6-bit colour index (10_state R48). -/
def Memory.legalColours (m : Memory) : Bool := m.all fun c => decide (c.2.toNat ≤ 0x3F)

/-- Every memory is in its canonical form, within its size (10_state R47 to R50, R53). -/
structure State.MemoriesWf (s : State) : Prop where
  ram     : s.ram.wf 0x800 = true
  vram    : s.ppu.vram.wf 0x1000 = true
  palette : s.ppu.palette.wf 32 = true
  oam     : s.ppu.oam.wf 256 = true
  chr     : s.ppu.chr.wf 0x2000 = true

/-- The background holds whole rows of 32 tiles, at most one for each eighth scanline passed
(48_ppu_rendering R279, R280). -/
def Ppu.wholeRows (q : Ppu) : Prop :=
  q.background.length % 32 = 0 ∧ q.background.length ≤ 32 * min (q.scanline / 8) 30

/-- The invariant of the machine. -/
structure State.Inv (s : State) : Prop where
  memories : s.MemoriesWf
  colours  : s.ppu.palette.legalColours = true
  reserved : s.p.r = true
  cycle    : s.ppu.cycle < 341
  scanline : s.ppu.scanline < 262
  status   : s.ppu.status &&& 0x3F = 0
  sprites  : s.ppu.sprites.length = 64
  rows     : s.ppu.wholeRows

/-- What power-on is given is legal: the memories are canonical, the palette holds colour indices, and the status pattern
has the reserved flag set (10_state R28, R57). -/
structure PowerOn.Legal (w : PowerOn) : Prop where
  ram     : w.ram.wf 0x800 = true
  vram    : w.vram.wf 0x1000 = true
  palette : w.palette.wf 32 = true
  oam     : w.oam.wf 256 = true
  chr     : w.chr.wf 0x2000 = true
  colours : w.palette.legalColours = true
  pattern : w.env.p0.r = true

/-- A safe step answers a next state (60_exceptions R320: claims are made where no fault is raised). -/
def State.StepSafe (s : State) : Prop := ∃ t, step s = .next t

/-! The arithmetic that results are stated in: plain numbers, not the operations the meanings use. -/

/-- The flags after a result: N is bit 7 of it, Z says it is 0 (10_state R30). -/
def Flags.ofResult (p : Flags) (v : Byte) : Flags := { p with n := decide (0x80 ≤ v.toNat), z := decide (v.toNat = 0) }

/-- The flags after a result and a carry (43_shift_rotate R184). -/
def Flags.ofCarried (p : Flags) (c : Bool) (v : Byte) : Flags := { p.ofResult v with c := c }

/-- `A + M + C` as an unbounded number (42_arithmetic_logic R160). -/
def sumOf (a m : Byte) (c : Bool) : Nat := a.toNat + m.toNat + c.toNat

/-- The signed reading of the same sum (42_arithmetic_logic R176). -/
def signedSum (a m : Byte) (c : Bool) : Int := a.toInt + m.toInt + c.toNat

/-- `A - M - (1 - C)` as an unbounded number (42_arithmetic_logic R162). -/
def differenceOf (a m : Byte) (c : Bool) : Int := (a.toNat : Int) - m.toNat - (!c).toNat

/-- The signed reading of the same difference (42_arithmetic_logic R176). -/
def signedDifference (a m : Byte) (c : Bool) : Int := a.toInt - m.toInt - (!c).toNat

/-- Outside what a signed byte holds (42_arithmetic_logic R176). -/
def outsideSigned (n : Int) : Bool := decide (n < -128 ∨ 127 < n)

/-- The state after an addition to the accumulator: the sum modulo 256, C the carry out, V the signed overflow
(42_arithmetic_logic R160, R176). -/
def State.added (s : State) (m : Byte) : State :=
  { s with
    a := BitVec.ofNat 8 (sumOf s.a m s.p.c)
    p := { s.p.ofResult (BitVec.ofNat 8 (sumOf s.a m s.p.c)) with
      c := decide (0x100 ≤ sumOf s.a m s.p.c), v := outsideSigned (signedSum s.a m s.p.c) } }

/-- The state after a subtraction: the difference modulo 256, C no borrow, V the signed overflow
(42_arithmetic_logic R162, R176). -/
def State.subtracted (s : State) (m : Byte) : State :=
  { s with
    a := BitVec.ofInt 8 (differenceOf s.a m s.p.c)
    p := { s.p.ofResult (BitVec.ofInt 8 (differenceOf s.a m s.p.c)) with
      c := decide (0 ≤ differenceOf s.a m s.p.c), v := outsideSigned (signedDifference s.a m s.p.c) } }

/-- The state after `Compare(reg, M)`: the flags of `reg - M` (42_arithmetic_logic R167). -/
def State.compared (s : State) (reg m : Byte) : State :=
  { s with
    p := s.p.ofCarried (decide (0 ≤ (reg.toNat : Int) - m.toNat)) (BitVec.ofInt 8 ((reg.toNat : Int) - m.toNat)) }

/-- A shifted byte and the bit shifted out of it, in plain numbers: ASL (43_shift_rotate R180). -/
def aslOf (v : Byte) : Byte × Bool := (BitVec.ofNat 8 (2 * v.toNat), decide (0x80 ≤ v.toNat))
/-- LSR (43_shift_rotate R181). -/
def lsrOf (v : Byte) : Byte × Bool := (BitVec.ofNat 8 (v.toNat / 2), decide (v.toNat % 2 = 1))
/-- ROL with carry-in `c` (43_shift_rotate R182). -/
def rolOf (c : Bool) (v : Byte) : Byte × Bool := (BitVec.ofNat 8 (2 * v.toNat + c.toNat), decide (0x80 ≤ v.toNat))
/-- ROR with carry-in `c` (43_shift_rotate R183). -/
def rorOf (c : Bool) (v : Byte) : Byte × Bool :=
  (BitVec.ofNat 8 (v.toNat / 2 + 0x80 * c.toNat), decide (v.toNat % 2 = 1))

/-! The shapes of results. -/

/-- A one-byte instruction: its opcode byte decodes to it, and it takes `c` cycles at the timing of the opcode table
(30_encoding R104, R121). -/
def OneByte (op : Byte) (i : Instr) (c : Nat) : Prop :=
  (∀ rest, decode (op :: rest) = .ok (i, rest)) ∧ ∀ s, countOf .standard i s = c

/-- The immediate rows of the opcode table with operand byte `v`, the undocumented ones among them. -/
def immediates (v : Byte) : List Instr :=
  [.lda (.imm v), .ldx (.imm v), .ldy (.imm v), .adc (.imm v), .sbc (.imm v), .and (.imm v), .ora (.imm v),
   .eor (.imm v), .cmp (.imm v), .cpx (.imm v), .cpy (.imm v), .sbcU v, .nopU 0x80 (.imm v), .nopU 0x82 (.imm v),
   .nopU 0x89 (.imm v), .nopU 0xC2 (.imm v), .nopU 0xE2 (.imm v)]

/-- The instructions that read memory, but for the undocumented NOPs, which only resolve their address. -/
def readers (m : AddrMode) : List Instr :=
  [.lda (.mem m), .ldx (.mem m), .ldy (.mem m), .adc (.mem m), .sbc (.mem m), .and (.mem m), .ora (.mem m),
   .eor (.mem m), .cmp (.mem m), .cpx (.mem m), .cpy (.mem m), .bit m, .lax m]

/-- The instructions that read memory and write it back. -/
def modifiers (m : AddrMode) : List Instr :=
  [.inc m, .dec m, .asl (.mem m), .lsr (.mem m), .rol (.mem m), .ror (.mem m), .dcp m, .isb m, .slo m, .rla m, .sre m,
   .rra m]

/-- The cycles of a reading form: the "Cycles" lines of LDA to CPY, BIT, *NOP and *LAX (40_load_store R131,
46_undocumented R221, R222). An indexed form pays one more where the index leaves the page of its base. -/
def readCount (m : AddrMode) (s : State) : Nat :=
  match m with
  | .zp _ => 3
  | .zpX _ | .zpY _ | .abs _ => 4
  | .absX w => if 256 ≤ w.toNat % 256 + s.x.toNat then 5 else 4
  | .absY w => if 256 ≤ w.toNat % 256 + s.y.toNat then 5 else 4
  | .indX _ => 6
  | .indY z => if crossed (.indY z) s = true then 6 else 5

/-- The cycles of a storing form: the "Cycles" lines of STA, STX, STY and *SAX (40_load_store R134 to R136,
46_undocumented R223). -/
def storeCount (m : AddrMode) : Nat :=
  match m with
  | .zp _ => 3
  | .zpX _ | .zpY _ | .abs _ => 4
  | .absX _ | .absY _ => 5
  | .indX _ | .indY _ => 6

/-- The cycles of a read-modify-write form: the "Cycles" lines of INC, DEC, the shifts and *DCP to *RRA
(42_arithmetic_logic R170, R171, 43_shift_rotate R184, 46_undocumented R225 to R230). -/
def modifyCount (m : AddrMode) : Nat :=
  match m with
  | .zp _ => 5
  | .zpX _ | .zpY _ | .abs _ => 6
  | .absX _ | .absY _ => 7
  | .indX _ | .indY _ => 8

/-- The instruction runs as one read of the effective address and one write of the result there, and ends in the
state that `post` makes of the byte read and the state written (20_memory R87). -/
def ModifyRuns (i : Instr) (m : AddrMode) (result : Byte → Byte) (post : Byte → State → State) (s : State) : Prop :=
  ∃ v s1 t, busRead (effAddr m s) s = .next (v, s1) ∧ busWrite (effAddr m s) (result v) s1 = .next t ∧
    exec i s = .next (post v t)

/-- The instruction stops with the fault of the read of its effective address, which is the bus's own
(60_exceptions R322, R324). -/
def StopsOnRead (i : Instr) (m : AddrMode) (s : State) : Prop :=
  ∃ f ∈ [Fault.unmappedAddress (.read (effAddr m s)), .ppuDataReadRefused (effAddr m s)],
    busRead (effAddr m s) s = .fault f ∧ exec i s = .fault f

/-- The instruction stops with the fault of its store of `v` to its effective address, which is the bus's own
(60_exceptions R322, R323). -/
def StopsOnWrite (i : Instr) (m : AddrMode) (v : Byte) (s : State) : Prop :=
  ∃ f ∈ [Fault.unmappedAddress (.write (effAddr m s) v), .invalidPaletteWrite s.ppu.vramAddr v],
    busWrite (effAddr m s) v s = .fault f ∧ exec i s = .fault f

/-- A reading instruction runs: its operand reads a byte, and it ends in the state `post` makes of the byte and the
state after the read (30_encoding R117). -/
def ReadRuns (i : Instr) (o : Operand) (post : Byte → State → State) (s : State) : Prop :=
  ∃ v s1, readOperand o s = .next (v, s1) ∧ exec i s = .next (post v s1)

/-- RAM holds these bytes at these cells, and in every other cell what it held before. -/
def RamChanged (s t : State) (cells : List (Nat × Byte)) : Prop :=
  (∀ c ∈ cells, t.ram.read c.1 = c.2) ∧ ∀ j, j ∉ cells.map Prod.fst → t.ram.read j = s.ram.read j

/-- `MemRead(v, 2)`: the two bus reads at `v` and `v + 1` answer, low byte first, and change nothing (20_memory R80). -/
def ReadsWord (s : State) (v w : Addr) : Prop :=
  ∃ lo hi, busRead v s = .next (lo, s) ∧ busRead (v + 1) s = .next (hi, s) ∧ w = joinBytes hi lo

/-- `t` is `s` after an interrupt entry that writes the break flag `brk` and saves the address `ret`
(60_exceptions R331, 44_control_flow R195). -/
structure EntersHandler (brk : Bool) (ret vector : Addr) (s t : State) : Prop where
  saved : RamChanged s t
    [(0x100 + s.sp.toNat, hiByte ret), (0x100 + (s.sp - 1).toNat, loByte ret),
     (0x100 + (s.sp - 2).toNat, Flags.toByte { s.p with b := brk })]
  target : ReadsWord s vector t.pc
  rest : t = { s with ram := t.ram, sp := s.sp - 3, p := { s.p with b := brk, i := true }, pc := t.pc }

/-- The CPU address selects PPU port `k` (20_memory R67, R68). -/
def onPort (ea : Addr) (k : Nat) : Prop := 0x2000 ≤ ea.toNat ∧ ea.toNat < 0x4000 ∧ ea.toNat % 8 = k

/-- What a store to the CPU address `ea` leaves unchanged, in every memory and device (20_memory R65,
47_ppu_ports R243 to R254): the store reaches one RAM cell, one PPU port, the DMA trigger, or nothing. -/
structure StoreKeeps (ea : Addr) (s t : State) : Prop where
  code : ∀ b : Addr, ¬ (ea.toNat < 0x2000 ∧ b.toNat < 0x2000 ∧ b.toNat % 0x800 = ea.toNat % 0x800) →
    codeByte t b = codeByte s b
  oam : ∀ j, ¬ (onPort ea 4 ∧ j = s.ppu.oamAddr.toNat) →
    t.ppu.oam.read j = s.ppu.oam.read j
  vram : ∀ j, ¬ (onPort ea 7 ∧ 0x2000 ≤ s.ppu.vramAddr.toNat ∧
      s.ppu.vramAddr.toNat < 0x3F00 ∧ j = ntRemap s.cart.mirroring ((s.ppu.vramAddr.toNat - 0x2000) % 0x1000)) →
    t.ppu.vram.read j = s.ppu.vram.read j
  palette : ∀ j, ¬ (onPort ea 7 ∧ 0x3F00 ≤ s.ppu.vramAddr.toNat ∧
      j = paletteIndex s.ppu.vramAddr) →
    t.ppu.palette.read j = s.ppu.palette.read j
  chr : ∀ j, ¬ (onPort ea 7 ∧ s.ppu.vramAddr.toNat < 0x2000 ∧
      j = s.ppu.vramAddr.toNat) →
    t.ppu.chr.read j = s.ppu.chr.read j
  ports : (¬ onPort ea 0 → t.ppu.ctrl = s.ppu.ctrl) ∧ (¬ onPort ea 1 → t.ppu.mask = s.ppu.mask) ∧
    (¬ onPort ea 2 → t.ppu.status = s.ppu.status) ∧
    (¬ onPort ea 3 → ¬ onPort ea 4 → t.ppu.oamAddr = s.ppu.oamAddr) ∧
    (¬ onPort ea 5 → t.ppu.scrollX = s.ppu.scrollX ∧ t.ppu.scrollY = s.ppu.scrollY) ∧
    (¬ onPort ea 5 → ¬ onPort ea 2 → t.ppu.scrollToggle = s.ppu.scrollToggle) ∧
    (¬ onPort ea 6 → ¬ onPort ea 7 → t.ppu.vramAddr = s.ppu.vramAddr) ∧
    (¬ onPort ea 6 → ¬ onPort ea 2 → t.ppu.addrToggle = s.ppu.addrToggle)
  renderer : t.ppu.cycle = s.ppu.cycle ∧ t.ppu.scanline = s.ppu.scanline ∧ t.ppu.background = s.ppu.background ∧
    t.ppu.sprites = s.ppu.sprites
  dma : ea ≠ 0x4014 → t.dmaPage = s.dmaPage ∧ t.dmaPending = s.dmaPending
  output : ea.toNat < 0x4000 ∨ 0x4020 ≤ ea.toNat → t.events = s.events
  machine : t.sp = s.sp ∧ t.pc = s.pc ∧ t.nmi = s.nmi ∧ t.irq = s.irq ∧ t.faulted = s.faulted ∧ t.cart = s.cart ∧
    t.env = s.env ∧ t.cycles = s.cycles ∧ t.stepped = s.stepped

/-- The state with another stored break flag (10_state R29). -/
def State.withBreak (s : State) (b : Bool) : State := { s with p := { s.p with b := b } }

/-- The event is a frame record (48_ppu_rendering R288). -/
def Event.isFrame (e : Event) : Bool :=
  match e with
  | .frame _ => true
  | .audioWrite _ _ | .audioStatusRead | .inputWrite _ | .inputRead => false

end Sys2Proof.Machine
end

