-- ==== Sys2Proof/Certificates/Slice0/Obligations.lean ====
section
/-! DEFINITION. The statements for the provers: the machine's own rules, file by file of spec/. Each docstring names the
rule it formalises. -/

open Sys2Proof Sys2Proof.Machine

/-! Encoding (30_encoding, 46_undocumented). -/

/-- Bytes written out from the "Encoding" lines of the rules decode to the instruction they stand for (files 40 to 46). -/
def Obligations.DecodesSampleWords : Prop :=
  decode [0xA9, 0x80] = .ok (.lda (.imm 0x80), []) ∧
  decode [0xB6, 0xF0] = .ok (.ldx (.mem (.zpY 0xF0)), []) ∧
  decode [0x8D, 0x00, 0x02] = .ok (.sta (.abs 0x0200), []) ∧
  decode [0xBA] = .ok (.tsx, []) ∧
  decode [0x48] = .ok (.pha, []) ∧
  decode [0x69, 0x50] = .ok (.adc (.imm 0x50), []) ∧
  decode [0x31, 0x10] = .ok (.and (.mem (.indY 0x10)), []) ∧
  decode [0xE6, 0x10] = .ok (.inc (.zp 0x10), []) ∧
  decode [0x6A] = .ok (.ror .acc, []) ∧
  decode [0x1E, 0x34, 0x12] = .ok (.asl (.mem (.absX 0x1234)), []) ∧
  decode [0x6C, 0xFF, 0x02] = .ok (.jmp (.ind 0x02FF), []) ∧
  decode [0x20, 0x10, 0x80] = .ok (.jsr 0x8010, []) ∧
  decode [0xD0, 0xFB] = .ok (.bne 0xFB, []) ∧
  decode [0xF8] = .ok (.sed, []) ∧
  decode [0x1C, 0xFF, 0x00] = .ok (.nopU 0x1C (.mem (.absX 0x00FF)), []) ∧
  decode [0xA7, 0x10] = .ok (.lax (.zp 0x10), []) ∧
  decode [0xC3, 0x10] = .ok (.dcp (.indX 0x10), []) ∧
  decode [0x9E] = .ok (.illegal 0x9E, [])

/-- No bit of an encoding is dropped: the bytes of a well-formed instruction, whatever follows them, decode to it
(30_encoding R100, R102, R123). -/
def Obligations.DecodeInvertsEncode : Prop :=
  ∀ (i : Instr) (rest : List Byte), i.wellFormed = true → decode (encode i ++ rest) = .ok (i, rest)

/-- What decodes is well-formed and has one encoding, the bytes it was decoded from (30_encoding R100, R102). -/
def Obligations.EncodeInvertsDecode : Prop :=
  ∀ (bs rest : List Byte) (i : Instr), decode bs = .ok (i, rest) → i.wellFormed = true ∧ encode i ++ rest = bs

/-! The step (49_dma_sequencer, 60_exceptions). -/

/-- A step, whole. Before the fetch, where there is no fault mark: the environment's move, then the copy where a DMA is
pending, which stops the step where its page is outside RAM and charges the stall, then the interrupt poll. Then, where
the bytes at the pc, in RAM or program ROM, decode to `i`, `exec i` with the pc past them; and wherever the bytes come
from, a port or a device too, each is one bus read at the pc with that read's value and effect, and a fetch that faults,
of the opcode or of an operand byte, stops the step with its fault: UnmappedAddress where the pc is unmapped. Then three
dots for each cycle of the stall and the instruction, fed to the PPU, whose loop advances a scanline for each 341 dots
until less remain (30_encoding R101, 20_memory R91, 00_scope R10, 49_dma_sequencer R306, R307, R309, 60_exceptions R322,
R326, R330, 48_ppu_rendering R271; `cycles` and `stepped` are the model's, notes/assumptions/6 and 8). -/
def Obligations.StepRunsDecoded : Prop :=
  (∀ (s s1 : State) (i : Instr) (bs : List Byte),
    beginStep s = .next s1 → decode bs = .ok (i, []) → holdsCode s1 s1.pc bs →
    step s = Res.andThen (exec i (s1.setPc (s1.pc + BitVec.ofNat 16 bs.length))) fun t =>
      .next (endStep i (s1.setPc (s1.pc + BitVec.ofNat 16 bs.length)) t)) ∧
  (∀ (s s1 s2 : State) (i : Instr) (bs : List Byte),
    beginStep s = .next s1 → decode bs = .ok (i, []) → FetchesBytes bs s1 s2 →
    step s = Res.andThen (exec i s2) fun t => .next (endStep i s2 t)) ∧
  (∀ (s s1 s2 : State) (bs : List Byte) (e : DecodeError) (f : Fault),
    beginStep s = .next s1 → decode bs = .error e → FetchesBytes bs s1 s2 → busRead s2.pc s2 = .fault f →
    step s = .fault f) ∧
  (∀ s s1 : State, beginStep s = .next s1 →
    (0x4000 ≤ s1.pc.toNat ∧ s1.pc.toNat ≤ 0x4014) ∨ (0x4017 ≤ s1.pc.toNat ∧ s1.pc.toNat ≤ 0x7FFF) →
    step s = .fault (.unmappedAddress (.read s1.pc))) ∧
  (∀ s : State, s.faulted = none →
    (s.dmaPending = false → beginStep s = .next (pollInterrupts { environmentMove s with cycles := 0 })) ∧
    (s.dmaPending = true → s.dmaPage.toNat < 8 → ∃ u, dmaRun (environmentMove s) = .next u ∧
      beginStep s = .next (pollInterrupts { u with cycles := s.env.timing.dmaStall })) ∧
    (s.dmaPending = true → 8 ≤ s.dmaPage.toNat → beginStep s = .fault (.dmaSourceOutOfRange s.dmaPage))) ∧
  (∀ (i : Instr) (before after : State), endStep i before after =
    ppuRun (3 * (before.cycles + cyclesOf i before))
      { after with cycles := before.cycles + cyclesOf i before, stepped := true }) ∧
  ∀ (n : Nat) (s : State),
    let fed : State := { s with ppu := { s.ppu with cycle := s.ppu.cycle + n } }
    (s.ppu.cycle + n < 341 → ppuRun n s = fed) ∧
    (341 ≤ s.ppu.cycle + n → s.ppu.cycle < 341 → ppuRun n s = ppuRun 0 (scanlineAdvance fed))

/-- The 25 illegal bytes are the ones with no table entry, they may stand as operands, and fetching one as an opcode,
from RAM, ROM or a port, stops the machine with the byte and the address it came from (46_undocumented R231). -/
def Obligations.IllegalOpcodeFaults : Prop :=
  illegalOpcodes.length = 25 ∧ illegalOpcodes.Nodup ∧
  (∀ op rest, decode (op :: rest) = .ok (.illegal op, rest) ↔ op ∈ illegalOpcodes) ∧
  (∀ op rest, op ∈ illegalOpcodes → decode (0xA9 :: op :: rest) = .ok (.lda (.imm op), rest)) ∧
  (∀ op s, exec (.illegal op) s = .fault (.illegalOpcode op (s.pc - 1))) ∧
  ∀ op s s1 s2, beginStep s = .next s1 → fetchByte s1 = .next (op, s2) → op ∈ illegalOpcodes →
    step s = .fault (.illegalOpcode op s1.pc)

/-- The fault mark and the order of faults: a marked machine takes no step, resetting or taking an interrupt does not clear
the mark, and a DMA from outside RAM faults before the instruction does. Where an instruction's operand, store or pointer
does not answer, it stops with the fault of that very access: a read-modify-write with its read's, and its write never
faults where its read answered. That a step of a marked state answers the marked
fault again, and that no step ends marked, are the model's choice (60_exceptions R320, R322 to R324, R326; DESIGN CHOICE of
notes/assumptions/10). -/
def Obligations.FaultMarkStops : Prop :=
  (∀ s f, s.faulted = some f → step s = .fault f) ∧
  (∀ s t, step s = .next t → t.faulted = none) ∧
  (∀ s, (cpuReset s).faulted = s.faulted ∧ (pollInterrupts s).faulted = s.faulted) ∧
  (∀ s, s.faulted = none → s.dmaPending = true → 8 ≤ s.dmaPage.toNat →
    step s = .fault (.dmaSourceOutOfRange s.dmaPage)) ∧
  (∀ (m : AddrMode) (s : State), readable (effAddr m s) = false →
    ∀ i ∈ readers m ++ modifiers m, StopsOnRead i m s) ∧
  (∀ (m : AddrMode) (v v' : Byte) (s s1 : State), busRead (effAddr m s) s = .next (v, s1) →
    ∃ t, busWrite (effAddr m s) v' s1 = .next t) ∧
  (∀ (m : AddrMode) (s : State), ∀ e ∈ [(Instr.sta m, s.a), (.stx m, s.x), (.sty m, s.y), (.sax m, s.a &&& s.x)],
    writable (effAddr m s) e.2 s = false → StopsOnWrite e.1 m e.2 s) ∧
  ∀ (w : Addr) (s : State), jumpReadable (.ind w) = false → ∃ f, exec (.jmp (.ind w)) s = .fault f ∧
    (busRead w s = .fault f ∨ ∃ lo s1, busRead w s = .next (lo, s1) ∧
      busRead (BitVec.ofNat 16 (w.toNat / 256 * 256 + (w.toNat + 1) % 256)) s1 = .fault f)

/-- A step charges the DMA stall, where a copy was pending, and the instruction, and feeds the PPU three dots for each
cycle: the PPU's position moves by exactly that; the stall is 514 by default (49_dma_sequencer R305, R306,
48_ppu_rendering R274; the field `cycles` is the model's, notes/assumptions/8). -/
def Obligations.StepChargesCycles : Prop :=
  ∀ s t, step s = .next t →
    (∃ s1 i s2, beginStep s = .next s1 ∧ fetchInstr s1 = .next (i, s2) ∧
      t.cycles = (if s.dmaPending = true then s.env.timing.dmaStall else 0) + cyclesOf i s2) ∧
    (s.ppu.cycle < 341 → s.ppu.scanline < 262 →
      t.ppu.scanline * 341 + t.ppu.cycle = (s.ppu.scanline * 341 + s.ppu.cycle + 3 * t.cycles) % 89342) ∧
    Timing.standard.dmaStall = 514

/-! Power-on and reset (10_state, 70_reset_and_hazards). -/

/-- Power-on and reset leave every piece of state at its value, for every value of the parameters `A0`, `X0`, `Y0`, `S0`,
`P0` and `PC0`, every cartridge and every initial memory; the reset after power-on is `CPU.reset()`; `State.reset` has the
parameters' defaults, the model's choice (10_state R57, 70_reset_and_hazards R353; DESIGN CHOICE of notes/assumptions/2). -/
def Obligations.PowerOnLeaves : Prop :=
  (State.reset.a = 0x00 ∧ State.reset.x = 0x00 ∧ State.reset.y = 0x00 ∧ State.reset.sp = 0xFD ∧
    State.reset.p.toByte = 0x34 ∧ blankPowerOn.pc0 = 0x0000) ∧
  ∀ w : PowerOn,
    (w.powered.pc = w.pc0 ∧ w.powered.p = w.env.p0 ∧ w.reset = cpuReset w.powered) ∧
    w.reset.a = w.a0 ∧ w.reset.x = w.x0 ∧ w.reset.y = w.y0 ∧ w.reset.sp = w.s0 ∧ w.reset.p = w.env.p0 ∧
    ReadsWord w.reset 0xFFFC w.reset.pc ∧
    w.reset.nmi = false ∧ w.reset.irq = false ∧ w.reset.dmaPending = false ∧ w.reset.dmaPage = 0x00 ∧
    w.reset.ppu =
      { cycle := 0, scanline := 0, ctrl := 0x00, mask := 0x00, status := 0x00, oamAddr := 0x00
        scrollX := 0x00, scrollY := 0x00, scrollToggle := false, vramAddr := 0x0000, addrToggle := false
        vram := w.vram, palette := w.palette, oam := w.oam, chr := w.chr
        background := [], sprites := evaluateSprites w.oam w.chr 0x00 } ∧
    w.reset.ram = w.ram ∧ w.reset.faulted = none ∧ w.reset.cart = w.cart ∧ w.reset.env = w.env

/-- `CPU.reset()` writes P, with the parameter `P0`, and PC and nothing else: not the stack pointer, not a pending interrupt
or DMA, not the fault mark, no memory, no PPU register; that `P0` is 0x34 in `State.reset` is the parameter's default, the
model's choice (70_reset_and_hazards R352; DESIGN CHOICE of notes/assumptions/2). -/
def Obligations.WarmResetWritesTwo : Prop :=
  (∀ s, ReadsWord s 0xFFFC (cpuReset s).pc ∧ cpuReset s = { s with p := s.env.p0, pc := (cpuReset s).pc }) ∧
  ∀ s, s.env.p0 = State.reset.env.p0 → (cpuReset s).p.toByte = 0x34

/-! Interrupts (60_exceptions, 44_control_flow). -/

/-- A pending NMI is taken at the poll whatever P.I holds: the pc and the status with the break flag clear are saved on
the stack, P.I is set, the pc goes to the word at 0xFFFA and the pending flag is cleared; nothing else changes
(60_exceptions R331, R332). -/
def Obligations.NmiEntersHandler : Prop :=
  ∀ s, s.ram.wf 0x800 = true → s.nmi = true →
    ∃ t, EntersHandler false s.pc 0xFFFA s t ∧ pollInterrupts s = { t with nmi := false }

/-- With no NMI pending, a pending IRQ is taken where P.I is clear, through 0xFFFE, and its flag cleared; where P.I is set
it waits and nothing changes. With both pending only the NMI is taken and the IRQ stays pending, masked by the P.I that
the entry set (60_exceptions R333, R334). -/
def Obligations.IrqEntersOrWaits : Prop :=
  (∀ s, s.ram.wf 0x800 = true → s.nmi = false → s.irq = true → s.p.i = false →
    ∃ t, EntersHandler false s.pc 0xFFFE s t ∧ pollInterrupts s = { t with irq := false }) ∧
  (∀ s, s.nmi = false → (s.irq = false ∨ s.p.i = true) → pollInterrupts s = s) ∧
  ∀ s, s.nmi = true → s.irq = true →
    (pollInterrupts s).irq = true ∧ (pollInterrupts s).p.i = true ∧ (pollInterrupts s).nmi = false ∧
      (pollInterrupts s).pc = s.cart.vector 0xFFFA

/-- BRK enters the IRQ handler whatever P.I holds, with the break flag set in the pushed and the stored status and the
address two past its opcode byte saved, in 7 cycles; the pending flags stay (44_control_flow R195). -/
def Obligations.BrkEntersHandler : Prop :=
  OneByte 0x00 .brk 7 ∧
  ∀ s, s.ram.wf 0x800 = true →
    ∃ t, exec .brk s = .next t ∧ EntersHandler true (s.pc - 1 + 2) 0xFFFE s t

/-- RTI pulls the status, forcing the reserved flag and keeping the stored break flag, then the pc with nothing added, in
6 cycles; the interrupt controller is not touched (44_control_flow R194). -/
def Obligations.RtiPullsStatusAndPc : Prop :=
  OneByte 0x40 .rti 6 ∧
  ∀ s, exec .rti s = .next
    { s with
      sp := s.sp + 3
      p := Flags.ofByte ((s.ram.read (0x100 + (s.sp + 1).toNat) &&& 0xCF) ||| (s.p.toByte &&& 0x10) ||| 0x20)
      pc := joinBytes (s.ram.read (0x100 + (s.sp + 3).toNat)) (s.ram.read (0x100 + (s.sp + 2).toNat)) }

/-- RTI straight after any interrupt entry undoes it: the saved address, the stack pointer and every flag but the stored
break flag are as before it, in every state whose reserved flag is 1, for every stack pointer (60_exceptions R337). -/
def Obligations.RtiUndoesEntry : Prop :=
  ∀ (s : State) (brk : Bool) (ret vector : Addr), s.ram.wf 0x800 = true → s.p.r = true →
    exec .rti (takeInterrupt brk ret vector s) = .next
      { s with ram := (takeInterrupt brk ret vector s).ram, p := { s.p with b := brk }, pc := ret }

/-! The bus (20_memory). -/

/-- `BusRead(a)`, row by row of the decoder: RAM and its mirrors, the PPU ports, the audio status, the input device,
program ROM in one or two banks, and the unmapped ranges, which fault (20_memory R64, R66, R71, R72, R74, R76; `draws` and
`events` are the model's, notes/assumptions/4 and 7). -/
def Obligations.BusReadsDecoded : Prop :=
  ∀ (a : Addr) (s : State),
    (a.toNat < 0x2000 → busRead a s = .next (s.ram.read (a &&& 0x07FF).toNat, s)) ∧
    (0x2000 ≤ a.toNat → a.toNat < 0x4000 → busRead a s = ppuRead (portOf (a &&& 0x0007)) a s) ∧
    (a = 0x4015 → ∃ v, busRead a s = .next (v, { s with draws := s.draws + 1, events := s.events ++ [.audioStatusRead] })) ∧
    (a = 0x4016 → ∃ v : Bool, busRead a s =
      .next (if v then 0x01 else 0x00, { s with draws := s.draws + 1, events := s.events ++ [.inputRead] })) ∧
    (0x8000 ≤ a.toNat → busRead a s = .next (s.cart.prg.read
      (if s.cart.banks = .one then (a &&& 0x3FFF).toNat else a.toNat - 0x8000), s)) ∧
    (busRead a s = .fault (.unmappedAddress (.read a)) ↔
      (0x4000 ≤ a.toNat ∧ a.toNat ≤ 0x4014) ∨ (0x4017 ≤ a.toNat ∧ a.toNat ≤ 0x7FFF))

/-- `BusWrite(a, v)`, row by row of the decoder: RAM and its mirrors, the PPU ports, the DMA trigger, the input device,
the audio registers, program ROM, which ignores it, and the unmapped range, which faults (20_memory R65, R66, R70, R73,
R75, R76; `events` is the model's, notes/assumptions/7). -/
def Obligations.BusWritesDecoded : Prop :=
  ∀ (a : Addr) (v : Byte) (s : State),
    (a.toNat < 0x2000 → busWrite a v s = .next { s with ram := s.ram.write (a &&& 0x07FF).toNat v }) ∧
    (0x2000 ≤ a.toNat → a.toNat < 0x4000 → busWrite a v s = ppuWrite (portOf (a &&& 0x0007)) v s) ∧
    (a = 0x4014 → busWrite a v s = .next { s with dmaPage := v, dmaPending := true }) ∧
    (a = 0x4016 → busWrite a v s = .next { s with events := s.events ++ [.inputWrite v] }) ∧
    (0x4000 ≤ a.toNat → a.toNat ≤ 0x401F → a ≠ 0x4014 → a ≠ 0x4016 →
      busWrite a v s = .next { s with events := s.events ++ [.audioWrite (a.toNat - 0x4000) v] }) ∧
    (0x8000 ≤ a.toNat → busWrite a v s = .next s) ∧
    (busWrite a v s = .fault (.unmappedAddress (.write a v)) ↔ 0x4020 ≤ a.toNat ∧ a.toNat ≤ 0x7FFF)

/-- A store to RAM is read back at every mirror of its address, by any later read and so by the next fetch, and no other
RAM byte changes (20_memory R66, R89, R91). -/
def Obligations.RamReadsBackThroughMirrors : Prop :=
  ∀ (a b : Addr) (v : Byte) (s t : State), s.ram.wf 0x800 = true → a.toNat < 0x2000 → b.toNat < 0x2000 →
    busWrite a v s = .next t →
    (b.toNat % 0x800 = a.toNat % 0x800 → busRead b t = .next (v, t)) ∧
    (b.toNat % 0x800 ≠ a.toNat % 0x800 → ∃ w, busRead b s = .next (w, s) ∧ busRead b t = .next (w, t))

/-! The PPU's ports (47_ppu_ports). -/

/-- Writes of ports 0 to 5, at every alias: control, mask and the OAM pointer are stored whole, a write of the status port
stores nothing and changes nothing, an OAM write stores at the pointer and advances it modulo 256, and the scroll port
takes X and Y in turn; no other state changes (47_ppu_ports R243 to R248). -/
def Obligations.PortWritesStore : Prop :=
  ∀ (a : Addr) (v : Byte) (s : State), 0x2000 ≤ a.toNat → a.toNat < 0x4000 →
    (a.toNat % 8 = 0 → busWrite a v s = .next { s with ppu := { s.ppu with ctrl := v } }) ∧
    (a.toNat % 8 = 1 → busWrite a v s = .next { s with ppu := { s.ppu with mask := v } }) ∧
    (a.toNat % 8 = 2 → busWrite a v s = .next s) ∧
    (a.toNat % 8 = 3 → busWrite a v s = .next { s with ppu := { s.ppu with oamAddr := v } }) ∧
    (a.toNat % 8 = 4 → busWrite a v s = .next { s with ppu := { s.ppu with
      oam := s.ppu.oam.write s.ppu.oamAddr.toNat v, oamAddr := BitVec.ofNat 8 (s.ppu.oamAddr.toNat + 1) } }) ∧
    (a.toNat % 8 = 5 → busWrite a v s = .next { s with ppu := { s.ppu with
      scrollX := if s.ppu.scrollToggle then s.ppu.scrollX else v
      scrollY := if s.ppu.scrollToggle then v else s.ppu.scrollY
      scrollToggle := !s.ppu.scrollToggle } })

/-- Port 6, at every alias: a first write gives the high byte and clears the low one, a second write is added modulo
0x10000, and the toggle turns; two writes from a clear toggle latch the word of the two bytes (47_ppu_ports R254). -/
def Obligations.AddressLatchAdds : Prop :=
  ∀ (a : Addr) (hi lo : Byte) (s : State), 0x2000 ≤ a.toNat → a.toNat < 0x4000 → a.toNat % 8 = 6 →
    (s.ppu.addrToggle = false → busWrite a hi s = .next { s with ppu := { s.ppu with
      vramAddr := BitVec.ofNat 16 (hi.toNat * 256), addrToggle := true } }) ∧
    (s.ppu.addrToggle = true → busWrite a lo s = .next { s with ppu := { s.ppu with
      vramAddr := BitVec.ofNat 16 (s.ppu.vramAddr.toNat + lo.toNat), addrToggle := false } }) ∧
    (s.ppu.addrToggle = false → Res.andThen (busWrite a hi s) (busWrite a lo) =
      .next { s with ppu := { s.ppu with vramAddr := joinBytes hi lo, addrToggle := false } })

/-- Port 7, at every alias: the byte goes to pattern RAM, nametable RAM through the mirroring, or palette RAM through the
sprite-mirror rule, by the latched address, which then steps by 1 or 32; a byte above 0x3F aimed at the palette faults
and nothing changes (47_ppu_ports R249 to R253). -/
def Obligations.DataPortRoutes : Prop :=
  ∀ (a : Addr) (v : Byte) (s : State), 0x2000 ≤ a.toNat → a.toNat < 0x4000 → a.toNat % 8 = 7 →
    let w := s.ppu.vramAddr.toNat
    let stepped := BitVec.ofNat 16 (w + if s.ppu.ctrl.getLsbD 2 then 32 else 1)
    let remap := fun off => if s.cart.mirroring = .horizontal then off % 0x800 else off
    let i := if w % 32 ∈ [0x10, 0x14, 0x18, 0x1C] then w % 32 - 0x10 else w % 32
    (0x3F00 ≤ w → 0x3F < v.toNat → busWrite a v s = .fault (.invalidPaletteWrite s.ppu.vramAddr v)) ∧
    (0x3F00 ≤ w → v.toNat ≤ 0x3F →
      busWrite a v s = .next { s with ppu := { s.ppu with palette := s.ppu.palette.write i v, vramAddr := stepped } }) ∧
    (0x3000 ≤ w → w < 0x3F00 → busWrite a v s =
      .next { s with ppu := { s.ppu with vram := s.ppu.vram.write (remap (w - 0x3000)) v, vramAddr := stepped } }) ∧
    (0x2000 ≤ w → w < 0x3000 → busWrite a v s =
      .next { s with ppu := { s.ppu with vram := s.ppu.vram.write (remap (w - 0x2000)) v, vramAddr := stepped } }) ∧
    (w < 0x2000 →
      busWrite a v s = .next { s with ppu := { s.ppu with chr := s.ppu.chr.write w v, vramAddr := stepped } })

/-- A read of port 2, at every alias, gives the status as it was, clears its vblank bit alone, and resets both toggles; a
second read finds vblank clear; no pending interrupt changes (47_ppu_ports R255). -/
def Obligations.StatusReadClears : Prop :=
  ∀ (a : Addr) (s : State), 0x2000 ≤ a.toNat → a.toNat < 0x4000 → a.toNat % 8 = 2 →
    ∃ t, busRead a s = .next (s.ppu.status, t) ∧
      t = { s with ppu := { s.ppu with status := t.ppu.status, addrToggle := false, scrollToggle := false } } ∧
      t.ppu.status.toNat = s.ppu.status.toNat % 128 ∧
      t.ppu.status.getLsbD 6 = s.ppu.status.getLsbD 6 ∧
      ∃ u, busRead a t = .next (t.ppu.status, u) ∧ t.ppu.status.getLsbD 7 = false

/-- Reads of the other ports, at every alias: port 4 gives the OAM byte at the pointer and changes nothing; ports 0, 1, 3,
5 and 6 give some byte, the same whatever the registers hold, and only draw; port 7 faults
(47_ppu_ports R256, R258, R259; `draws` is the model's, notes/assumptions/4). -/
def Obligations.PortReadsAnswer : Prop :=
  ∀ (a : Addr) (s : State), 0x2000 ≤ a.toNat → a.toNat < 0x4000 →
    (a.toNat % 8 = 4 → busRead a s = .next (s.ppu.oam.read s.ppu.oamAddr.toNat, s)) ∧
    (a.toNat % 8 ∈ [0, 1, 3, 5, 6] → ∃ v, ∀ q : Ppu,
      busRead a { s with ppu := q } = .next (v, { s with ppu := q, draws := s.draws + 1 })) ∧
    (a.toNat % 8 = 7 → busRead a s = .fault (.ppuDataReadRefused a))

/-- A read-modify-write aimed at a port reads, then writes: INC of port 4 stores the OAM byte plus 1 in the same cell and
advances the pointer, INC of port 2 clears vblank and writes nothing (47_ppu_ports R257). -/
def Obligations.IncOfPortReadsThenWrites : Prop :=
  ∀ (a : Addr) (s : State), 0x2000 ≤ a.toNat → a.toNat < 0x4000 →
    (a.toNat % 8 = 4 →
      let v := s.ppu.oam.read s.ppu.oamAddr.toNat + 1
      exec (.inc (.abs a)) s = .next { s with
        ppu := { s.ppu with oam := s.ppu.oam.write s.ppu.oamAddr.toNat v, oamAddr := s.ppu.oamAddr + 1 }
        p := s.p.ofResult v }) ∧
    (a.toNat % 8 = 2 →
      exec (.inc (.abs a)) s = .next { s with
        ppu := { s.ppu with
          status := BitVec.ofNat 8 (s.ppu.status.toNat % 128), addrToggle := false, scrollToggle := false }
        p := s.p.ofResult (s.ppu.status + 1) })

/-! The DMA unit (49_dma_sequencer). -/

/-- A write of 0x4014 records the page and marks the copy pending, and copies nothing; its instruction's count is the
ordinary one; a second write before the copy overwrites the page (49_dma_sequencer R301). -/
def Obligations.DmaTriggerDefers : Prop :=
  (∀ v s, busWrite 0x4014 v s = .next { s with dmaPage := v, dmaPending := true }) ∧
  (∀ s, exec (.sta (.abs 0x4014)) s = .next { s with dmaPage := s.a, dmaPending := true } ∧
    countOf .standard (.sta (.abs 0x4014)) s = 4) ∧
  ∀ v w s, Res.andThen (busWrite 0x4014 v s) (busWrite 0x4014 w) =
    .next { s with dmaPage := w, dmaPending := true }

/-- The copy: all 256 bytes of a RAM page, in order, to OAM 0 to 255 whatever the OAM pointer holds, and the pending flag
cleared; a page outside RAM faults with nothing copied (49_dma_sequencer R302). -/
def Obligations.DmaCopiesPage : Prop :=
  ∀ s : State,
    (s.dmaPage.toNat < 8 → s.ppu.oam.wf 256 = true →
      ∃ t, dmaRun s = .next t ∧
        t = { s with ppu := { s.ppu with oam := t.ppu.oam }, dmaPending := false } ∧
        ∀ i, i < 256 → t.ppu.oam.read i = s.ram.read (s.dmaPage.toNat * 256 + i)) ∧
    (8 ≤ s.dmaPage.toNat → dmaRun s = .fault (.dmaSourceOutOfRange s.dmaPage))

/-! The renderer (48_ppu_rendering). -/

/-- After a total of `T` dots the PPU stands at dot `T mod 341` of scanline `(T div 341) mod 262`: it does at power-on with
no dot, and `PPU.run(n)` keeps it so; no dot is skipped (48_ppu_rendering R274). -/
def Obligations.PpuPositionCountsDots : Prop :=
  (∀ w : PowerOn, w.reset.ppu.cycle = 0 % 341 ∧ w.reset.ppu.scanline = 0 / 341 % 262) ∧
  (∀ (T n : Nat) (s : State), s.ppu.cycle = T % 341 → s.ppu.scanline = T / 341 % 262 →
    (ppuRun n s).ppu.cycle = (T + n) % 341 ∧ (ppuRun n s).ppu.scanline = (T + n) / 341 % 262) ∧
  341 * 262 = 89342 ∧ 89342 = 3 * 29780 + 2

/-- Vblank and the NMI through one scanline advance: both set on entering scanline 241, the NMI where control bit 7 is set
then; both clear on the wrap; unchanged at every other advance (48_ppu_rendering R276, R277). -/
def Obligations.VblankSetsAndClears : Prop :=
  ∀ s : State, s.ppu.scanline < 262 →
    (s.ppu.scanline = 240 → (scanlineAdvance s).ppu.status.getLsbD 7 = true ∧
      (scanlineAdvance s).nmi = (s.nmi || s.ppu.ctrl.getLsbD 7)) ∧
    (s.ppu.scanline = 261 → (scanlineAdvance s).ppu.status.getLsbD 7 = false ∧ (scanlineAdvance s).nmi = false) ∧
    (s.ppu.scanline ≠ 240 → s.ppu.scanline ≠ 261 →
      (scanlineAdvance s).ppu.status.getLsbD 7 = s.ppu.status.getLsbD 7 ∧ (scanlineAdvance s).nmi = s.nmi)

/-- The frame wrap: from scanline 261 the counter returns to 0, vblank and sprite-0 hit are cleared, the NMI is withdrawn,
the frame as it stands is emitted, the background emptied and the sprites evaluated anew; nothing else changes
(48_ppu_rendering R277, R286, R288; `events` is the model's, notes/assumptions/7). -/
def Obligations.FrameWrapEmits : Prop :=
  ∀ s : State, s.ppu.scanline = 261 →
    scanlineAdvance s = { s with
      nmi := false
      events := s.events ++
        [.frame { background := s.ppu.background, palette := paletteSnapshot s.ppu.palette, sprites := s.ppu.sprites }]
      ppu := { s.ppu with
        cycle := s.ppu.cycle - 341, scanline := 0, status := BitVec.ofNat 8 (s.ppu.status.toNat % 64)
        background := [], sprites := evaluateSprites s.ppu.oam s.ppu.chr s.ppu.ctrl } }

/-- A background row: entering a scanline that is a multiple of 8, at most 240, with the Y scroll at most 240, appends the
32 tiles of the row just passed, each from the nametable and attribute bytes that the scroll and the base nametable
select through the mirroring; entering any other scanline but 262 leaves the background (48_ppu_rendering R279 to
R281). -/
def Obligations.RowAppendsTiles : Prop :=
  ∀ s : State, s.ppu.scanline < 261 →
    if (s.ppu.scanline + 1) % 8 = 0 ∧ s.ppu.scanline + 1 ≤ 240 ∧ s.ppu.scrollY.toNat ≤ 240 then
      ∃ row : List Tile, row.length = 32 ∧ (scanlineAdvance s).ppu.background = s.ppu.background ++ row ∧
        ∀ (c : Nat) (tile : Tile), row[c]? = some tile →
          let nt0 := s.ppu.ctrl.toNat % 4
          let tx := (s.ppu.scrollX.toNat + nt0 % 2 * 256) / 8 + c
          let ty := (s.ppu.scrollY.toNat + nt0 / 2 * 240) / 8 + ((s.ppu.scanline + 1) / 8 - 1)
          let table := (tx / 32 % 2 + 2 * (ty / 30 % 2)) * 0x400
          let remap := fun off => if s.cart.mirroring = .horizontal then off % 0x800 else off
          let id := s.ppu.vram.read (remap (table + ty % 30 * 32 + tx % 32))
          let attr := s.ppu.vram.read (remap (table + 0x3C0 + ty % 30 / 4 * 8 + tx % 32 / 4))
          let block := tx % 32 % 4 / 2 + 2 * (ty % 30 % 4 / 2)
          tile.pixels = pattern s.ppu.chr ((if s.ppu.ctrl.getLsbD 4 then 0x1000 else 0) + 16 * id.toNat) ∧
          tile.paletteId.toNat = attr.toNat / 4 ^ block % 4 ∧
          tile.scrollX = s.ppu.scrollX ∧ tile.scrollY = s.ppu.scrollY
    else (scanlineAdvance s).ppu.background = s.ppu.background

/-- The pattern decoder: the pixel in row `y` and column `x` takes bit `7 - x` of byte `y` of plane 0 as its low bit and of
plane 1, eight bytes on, as its high bit; eight rows of eight (48_ppu_rendering R282). -/
def Obligations.PatternPixels : Prop :=
  ∀ (chr : Memory) (base : Nat), (pattern chr base).length = 8 ∧
    ∀ y, y < 8 → ∃ row, (pattern chr base)[y]? = some row ∧ row.length = 8 ∧
      ∀ x, x < 8 → ∃ pixel, row[x]? = some pixel ∧
        pixel.toNat = (Memory.read chr (base + y)).toNat / 2 ^ (7 - x) % 2 +
          2 * ((Memory.read chr (base + 8 + y)).toNat / 2 ^ (7 - x) % 2)

/-- Sprite evaluation: 64 records in OAM order, each with the signed `Y - 8`, the X, attribute and pattern id bytes as
stored, and the pattern of the table that control bit 3 selects (48_ppu_rendering R283). -/
def Obligations.SpritesEvaluated : Prop :=
  ∀ (oam chr : Memory) (ctrl : Byte), (evaluateSprites oam chr ctrl).length = 64 ∧
    ∀ i, i < 64 → ∃ r, (evaluateSprites oam chr ctrl)[i]? = some r ∧
      r.pixels = pattern chr ((if ctrl.getLsbD 3 then 0x1000 else 0) + 16 * (Memory.read oam (4 * i + 1)).toNat) ∧
      r.x = Memory.read oam (4 * i + 3) ∧ r.attr = Memory.read oam (4 * i + 2) ∧
      r.patternId = Memory.read oam (4 * i + 1) ∧
      r.y + 8 = ((Memory.read oam (4 * i)).toNat : Int) ∧ -8 ≤ r.y ∧ r.y ≤ 247

/-- The palette snapshot: 32 bytes, the entries 0x10, 0x14, 0x18 and 0x1C shown as the entry 0x10 lower, the entries 0x04,
0x08 and 0x0C as entry 0, every other as itself (48_ppu_rendering R287). -/
def Obligations.PaletteSnapshotMirrors : Prop :=
  ∀ palette : Memory, (paletteSnapshot palette).length = 32 ∧
    ∀ i, i < 32 → (paletteSnapshot palette)[i]? = some (palette.read
      (if i % 4 = 0 ∧ 0x10 ≤ i then i - 0x10 else if i % 4 = 0 then 0x00 else i))

/-- The sprite-0-hit bit through one scanline advance: with `never` it only falls, at the wrap; with `any`, on scanlines 1
to 240, it becomes what it was or the bit drawn there, one draw for each scanline, and it never falls before the wrap
(48_ppu_rendering R278; `draws` and `env` are the model's, notes/assumptions/4 and 5). -/
def Obligations.SpriteZeroHit : Prop :=
  ∀ s : State, s.ppu.scanline < 262 →
    (s.ppu.scanline = 261 → (scanlineAdvance s).ppu.status.getLsbD 6 = false ∧ (scanlineAdvance s).draws = s.draws) ∧
    (s.env.sprite0Hit = .never → s.ppu.scanline ≠ 261 →
      (scanlineAdvance s).ppu.status.getLsbD 6 = s.ppu.status.getLsbD 6 ∧ (scanlineAdvance s).draws = s.draws) ∧
    (s.env.sprite0Hit = .any → s.ppu.scanline < 240 →
      (scanlineAdvance s).ppu.status.getLsbD 6 = (s.ppu.status.getLsbD 6 || Config.sprite0Hit s.draws) ∧
        (scanlineAdvance s).draws = s.draws + 1) ∧
    (s.env.sprite0Hit = .any → 240 ≤ s.ppu.scanline → s.ppu.scanline ≠ 261 →
      (scanlineAdvance s).ppu.status.getLsbD 6 = s.ppu.status.getLsbD 6 ∧ (scanlineAdvance s).draws = s.draws)

/-! Operands and cycles (30_encoding). -/

/-- Effective addresses and page crossing in plain arithmetic: zero-page sums wrap in page zero, absolute sums at 16 bits,
pointers come from two bytes of page zero with the second address wrapped, and only the three modes whose sum can leave
a page report a crossing (30_encoding R107 to R112, R114, R115, 20_memory R81). -/
def Obligations.EffectiveAddresses : Prop :=
  ∀ (z : Byte) (w : Addr) (s : State),
    (effAddr (.zp z) s).toNat = z.toNat ∧
    (effAddr (.zpX z) s).toNat = (z.toNat + s.x.toNat) % 256 ∧
    (effAddr (.zpY z) s).toNat = (z.toNat + s.y.toNat) % 256 ∧
    effAddr (.abs w) s = w ∧
    (effAddr (.absX w) s).toNat = (w.toNat + s.x.toNat) % 65536 ∧
    (effAddr (.absY w) s).toNat = (w.toNat + s.y.toNat) % 65536 ∧
    (∃ lo hi, busRead (BitVec.ofNat 16 ((z.toNat + s.x.toNat) % 256)) s = .next (lo, s) ∧
      busRead (BitVec.ofNat 16 ((z.toNat + s.x.toNat + 1) % 256)) s = .next (hi, s) ∧
      (effAddr (.indX z) s).toNat = hi.toNat * 256 + lo.toNat) ∧
    (∃ lo hi, busRead (BitVec.ofNat 16 z.toNat) s = .next (lo, s) ∧
      busRead (BitVec.ofNat 16 ((z.toNat + 1) % 256)) s = .next (hi, s) ∧
      (effAddr (.indY z) s).toNat = (hi.toNat * 256 + lo.toNat + s.y.toNat) % 65536 ∧
      (crossed (.indY z) s = true ↔ 256 ≤ lo.toNat + s.y.toNat)) ∧
    (crossed (.absX w) s = true ↔ 256 ≤ w.toNat % 256 + s.x.toNat) ∧
    (crossed (.absY w) s = true ↔ 256 ≤ w.toNat % 256 + s.y.toNat) ∧
    crossed (.zp z) s = false ∧ crossed (.zpX z) s = false ∧ crossed (.zpY z) s = false ∧
    crossed (.abs w) s = false ∧ crossed (.indX z) s = false

/-- The cycle counts. In immediate and zero-page modes the count is the tabulated one, whatever the table. At the timing of
the opcode table: 2 to 8 for every instruction, and the exact count of every row: reading, storing and read-modify-write
forms by mode, with the page-cross cycle on reading forms alone; 2 in immediate and accumulator mode; JMP 3 and 5, JSR, RTS
and RTI 6, BRK 7; a branch 2 not taken, 3 taken, 4 taken to another page. The other one-byte instructions have theirs
beside their effect (30_encoding R118, R121, 44_control_flow R190 to R196, 70_reset_and_hazards R370 to R372). -/
def Obligations.CycleCounts : Prop :=
  (∀ i op s m, i.wellFormed = true → i.opcode = some op → memForm i = some m →
    m.mode ∈ [.zeropage, .zeropageX, .zeropageY] → cyclesOf i s = s.env.timing.baseOf op) ∧
  (∀ i op s v, i ∈ immediates v → i.opcode = some op → cyclesOf i s = s.env.timing.baseOf op) ∧
  (∀ op, Timing.standard.baseOf op = baseCycles op ∧ Timing.standard.penaltyOf op = pagePenalty op) ∧
  (∀ i s, i.wellFormed = true → (∀ op, i ≠ .illegal op) → 2 ≤ countOf .standard i s ∧ countOf .standard i s ≤ 8) ∧
  (∀ v s, ∀ i ∈ immediates v, countOf .standard i s = 2) ∧
  (∀ m s, ∀ i ∈ readers m, i.wellFormed = true → countOf .standard i s = readCount m s) ∧
  (∀ op m s, (Instr.nopU op (.mem m)).wellFormed = true → countOf .standard (.nopU op (.mem m)) s = readCount m s) ∧
  (∀ op s, (Instr.nopU op .implied).wellFormed = true → countOf .standard (.nopU op .implied) s = 2) ∧
  (∀ m s, ∀ i ∈ [Instr.sta m, .stx m, .sty m, .sax m], i.wellFormed = true → countOf .standard i s = storeCount m) ∧
  (∀ m s, ∀ i ∈ modifiers m, i.wellFormed = true → countOf .standard i s = modifyCount m) ∧
  (∀ s, ∀ i ∈ [Instr.asl .acc, .lsr .acc, .rol .acc, .ror .acc], countOf .standard i s = 2) ∧
  (∀ w s, countOf .standard (.jmp (.abs w)) s = 3 ∧ countOf .standard (.jmp (.ind w)) s = 5 ∧
    countOf .standard (.jsr w) s = 6 ∧ countOf .standard .rts s = 6 ∧ countOf .standard .rti s = 6 ∧
    countOf .standard .brk s = 7) ∧
  ∀ (d : Byte) (s : State), ∀ e ∈ [(Instr.bcc d, !s.p.c), (.bcs d, s.p.c), (.beq d, s.p.z), (.bne d, !s.p.z),
      (.bmi d, s.p.n), (.bpl d, !s.p.n), (.bvc d, !s.p.v), (.bvs d, s.p.v)],
    countOf .standard e.1 s = if e.2 = false then 2
      else if hiByte (BitVec.ofInt 16 ((s.pc.toNat : Int) + d.toInt)) = hiByte s.pc then 3 else 4

/-! What each instruction does, and that it completes (files 40 to 46). -/

/-- LDA, LDX, LDY and *LAX: wherever the operand answers they run, the byte read goes to the register, to both A and X for
*LAX, with N and Z of it, and no other flag, register or memory is written (40_load_store R131 to R133,
46_undocumented R222). -/
def Obligations.LoadsComplete : Prop :=
  ∀ (o : Operand) (m : AddrMode) (s : State),
    (operandReadable o s = true →
      ReadRuns (.lda o) o (fun v t => { t with a := v, p := t.p.ofResult v }) s ∧
      ReadRuns (.ldx o) o (fun v t => { t with x := v, p := t.p.ofResult v }) s ∧
      ReadRuns (.ldy o) o (fun v t => { t with y := v, p := t.p.ofResult v }) s) ∧
    (readable (effAddr m s) = true →
      ReadRuns (.lax m) (.mem m) (fun v t => { t with a := v, x := v, p := t.p.ofResult v }) s)

/-- STA, STX, STY and *SAX: wherever the write answers they run, and are the one bus write of A, X, Y or A & X to the
effective address: no flag, and nothing read there (40_load_store R134 to R136, 46_undocumented R223). -/
def Obligations.StoresComplete : Prop :=
  ∀ (m : AddrMode) (s : State),
    (writable (effAddr m s) s.a s = true →
      ∃ t, busWrite (effAddr m s) s.a s = .next t ∧ exec (.sta m) s = .next t) ∧
    (writable (effAddr m s) s.x s = true →
      ∃ t, busWrite (effAddr m s) s.x s = .next t ∧ exec (.stx m) s = .next t) ∧
    (writable (effAddr m s) s.y s = true →
      ∃ t, busWrite (effAddr m s) s.y s = .next t ∧ exec (.sty m) s = .next t) ∧
    (writable (effAddr m s) (s.a &&& s.x) s = true →
      ∃ t, busWrite (effAddr m s) (s.a &&& s.x) s = .next t ∧ exec (.sax m) s = .next t)

/-- TAX, TAY, TXA, TYA, TSX and TXS: their bytes, their counts, the register written and, but for TXS, its N and Z; nothing
else changes (41_transfer_stack R141 to R146). -/
def Obligations.TransfersComplete : Prop :=
  OneByte 0xAA .tax 2 ∧ OneByte 0xA8 .tay 2 ∧ OneByte 0x8A .txa 2 ∧ OneByte 0x98 .tya 2 ∧ OneByte 0xBA .tsx 2 ∧
  OneByte 0x9A .txs 2 ∧
  ∀ s : State,
    exec .tax s = .next { s with x := s.a, p := s.p.ofResult s.a } ∧
    exec .tay s = .next { s with y := s.a, p := s.p.ofResult s.a } ∧
    exec .txa s = .next { s with a := s.x, p := s.p.ofResult s.x } ∧
    exec .tya s = .next { s with a := s.y, p := s.p.ofResult s.y } ∧
    exec .tsx s = .next { s with x := s.sp, p := s.p.ofResult s.sp } ∧
    exec .txs s = .next { s with sp := s.x }

/-- PHA, PHP, PLA and PLP: their bytes and counts; a push stores at the stack pointer, then lowers it modulo 256, PHP with
bits 5 and 4 set and P unchanged; a pull raises it, then reads; PLP keeps the stored break flag and forces the reserved
one. No other state changes (41_transfer_stack R147 to R150). -/
def Obligations.StackInstructionsComplete : Prop :=
  OneByte 0x48 .pha 3 ∧ OneByte 0x08 .php 3 ∧ OneByte 0x68 .pla 4 ∧ OneByte 0x28 .plp 4 ∧
  ∀ s : State,
    (∃ t, exec .pha s = .next t ∧ t = { s with ram := t.ram, sp := s.sp - 1 } ∧
      (s.ram.wf 0x800 = true → RamChanged s t [(0x100 + s.sp.toNat, s.a)])) ∧
    (∃ t, exec .php s = .next t ∧ t = { s with ram := t.ram, sp := s.sp - 1 } ∧
      (s.ram.wf 0x800 = true → RamChanged s t [(0x100 + s.sp.toNat, s.p.toByte ||| 0x30)])) ∧
    (∃ v, v = s.ram.read (0x100 + (s.sp.toNat + 1) % 256) ∧
      exec .pla s = .next { s with sp := s.sp + 1, a := v, p := s.p.ofResult v }) ∧
    ∃ v, v = s.ram.read (0x100 + (s.sp.toNat + 1) % 256) ∧
      exec .plp s = .next { s with sp := s.sp + 1, p := Flags.ofByte ((v &&& 0xCF) ||| (s.p.toByte &&& 0x10) ||| 0x20) }

/-- Three pushes and three pulls restore the stack pointer and give the bytes back in reverse order, from any stack
pointer, across the wrap too (41_transfer_stack R151). -/
def Obligations.StackDiscipline : Prop :=
  ∀ (b1 b2 b3 : Byte) (s : State), s.ram.wf 0x800 = true →
    let t := push b3 (push b2 (push b1 s))
    pullByte t = b3 ∧ pullByte (pulled t) = b2 ∧ pullByte (pulled (pulled t)) = b1 ∧
      (pulled (pulled (pulled t))).sp = s.sp

/-- ADC, SBC and the undocumented SBC: wherever the operand answers they run; the result is the sum or the difference
modulo 256, C its carry or no borrow, V set exactly when the signed result leaves -128 to 127, N and Z of the result; the
decimal flag plays no part (42_arithmetic_logic R160 to R162, R176, 46_undocumented R224). -/
def Obligations.AddSubtractComplete : Prop :=
  ∀ (o : Operand) (v : Byte) (s : State),
    (operandReadable o s = true →
      ReadRuns (.adc o) o (fun m t => t.added m) s ∧ ReadRuns (.sbc o) o (fun m t => t.subtracted m) s) ∧
    exec (.sbcU v) s = .next (s.subtracted v)

/-- AND, ORA and EOR: wherever the operand answers they run, A takes the bitwise result with its N and Z, and no other
flag changes (42_arithmetic_logic R163 to R165). -/
def Obligations.LogicCompletes : Prop :=
  ∀ (o : Operand) (s : State), operandReadable o s = true →
    ReadRuns (.and o) o (fun v t => { t with a := t.a &&& v, p := t.p.ofResult (t.a &&& v) }) s ∧
    ReadRuns (.ora o) o (fun v t => { t with a := t.a ||| v, p := t.p.ofResult (t.a ||| v) }) s ∧
    ReadRuns (.eor o) o (fun v t => { t with a := t.a ^^^ v, p := t.p.ofResult (t.a ^^^ v) }) s

/-- BIT, CMP, CPX and CPY: wherever the operand answers they run and write flags alone; BIT takes N and V from bits 7 and
6 of the byte read and Z from its AND with A; the compares take C, N and Z from the difference of the register and the
byte, and leave V (42_arithmetic_logic R166 to R169). -/
def Obligations.TestsComplete : Prop :=
  ∀ (o : Operand) (m : AddrMode) (s : State),
    (readable (effAddr m s) = true →
      ReadRuns (.bit m) (.mem m) (fun v t => { t with p := { t.p with
        n := decide (128 ≤ v.toNat), v := decide (64 ≤ v.toNat % 128), z := decide ((t.a &&& v) = 0) } }) s) ∧
    (operandReadable o s = true →
      ReadRuns (.cmp o) o (fun v t => t.compared t.a v) s ∧
      ReadRuns (.cpx o) o (fun v t => t.compared t.x v) s ∧
      ReadRuns (.cpy o) o (fun v t => t.compared t.y v) s)

/-- INC and DEC of memory: wherever the read answers they run, one read and one write of the byte plus or minus 1 modulo
256, with its N and Z, and no other flag or register (42_arithmetic_logic R170, R171). -/
def Obligations.IncDecMemoryCompletes : Prop :=
  ∀ (m : AddrMode) (s : State), readable (effAddr m s) = true →
    ModifyRuns (.inc m) m (fun v => BitVec.ofNat 8 (v.toNat + 1))
      (fun v t => { t with p := t.p.ofResult (BitVec.ofNat 8 (v.toNat + 1)) }) s ∧
    ModifyRuns (.dec m) m (fun v => BitVec.ofNat 8 (v.toNat + 255))
      (fun v t => { t with p := t.p.ofResult (BitVec.ofNat 8 (v.toNat + 255)) }) s

/-- INX, INY, DEX and DEY: their bytes and counts; the register plus or minus 1 modulo 256, with its N and Z; nothing else
changes (42_arithmetic_logic R172 to R175). -/
def Obligations.IncDecRegisterCompletes : Prop :=
  OneByte 0xE8 .inx 2 ∧ OneByte 0xC8 .iny 2 ∧ OneByte 0xCA .dex 2 ∧ OneByte 0x88 .dey 2 ∧
  ∀ s : State,
    exec .inx s = .next { s with
      x := BitVec.ofNat 8 (s.x.toNat + 1), p := s.p.ofResult (BitVec.ofNat 8 (s.x.toNat + 1)) } ∧
    exec .iny s = .next { s with
      y := BitVec.ofNat 8 (s.y.toNat + 1), p := s.p.ofResult (BitVec.ofNat 8 (s.y.toNat + 1)) } ∧
    exec .dex s = .next { s with
      x := BitVec.ofNat 8 (s.x.toNat + 255), p := s.p.ofResult (BitVec.ofNat 8 (s.x.toNat + 255)) } ∧
    exec .dey s = .next { s with
      y := BitVec.ofNat 8 (s.y.toNat + 255), p := s.p.ofResult (BitVec.ofNat 8 (s.y.toNat + 255)) }

/-- ASL, LSR, ROL and ROR: on the accumulator, and on memory wherever the read answers, they run; the result is the byte
doubled or halved with the old carry shifted in by the rotates, C is the bit shifted out, N and Z of the result, V as it
was (43_shift_rotate R180 to R184). -/
def Obligations.ShiftsComplete : Prop :=
  ∀ (m : AddrMode) (s : State),
    ∀ e ∈ [(Instr.asl, aslOf), (.lsr, lsrOf), (.rol, rolOf s.p.c), (.ror, rorOf s.p.c)],
      exec (e.1 .acc) s = .next { s with a := (e.2 s.a).1, p := s.p.ofCarried (e.2 s.a).2 (e.2 s.a).1 } ∧
      (readable (effAddr m s) = true →
        ModifyRuns (e.1 (.mem m)) m (fun v => (e.2 v).1)
          (fun v t => { t with p := t.p.ofCarried (e.2 v).2 (e.2 v).1 }) s)

/-- JMP, JSR and RTS: an absolute jump goes to its word; an indirect one, wherever both bytes of its pointer answer, to
the word behind it whose high byte comes from the same page; JSR pushes the address of its last byte and RTS goes one
past the word it pulls, so RTS undoes JSR; no flag changes (44_control_flow R190 to R193). -/
def Obligations.JumpsComplete : Prop :=
  (∀ (w : Addr) (s : State), exec (.jmp (.abs w)) s = .next { s with pc := w }) ∧
  (∀ (w : Addr) (s : State), jumpReadable (.ind w) = true → ∃ lo hi s1 s2, busRead w s = .next (lo, s1) ∧
    busRead (BitVec.ofNat 16 (w.toNat / 256 * 256 + (w.toNat + 1) % 256)) s1 = .next (hi, s2) ∧
    exec (.jmp (.ind w)) s = .next { s2 with pc := joinBytes hi lo }) ∧
  (∀ (w : Addr) (s : State), ∃ t, exec (.jsr w) s = .next t ∧ t = { s with ram := t.ram, sp := s.sp - 2, pc := w } ∧
    (s.ram.wf 0x800 = true → RamChanged s t
      [(0x100 + s.sp.toNat, hiByte (s.pc - 1)), (0x100 + (s.sp - 1).toNat, loByte (s.pc - 1))])) ∧
  (∀ s : State, exec .rts s = .next { s with
    sp := s.sp + 2
    pc := joinBytes (s.ram.read (0x100 + (s.sp + 2).toNat)) (s.ram.read (0x100 + (s.sp + 1).toNat)) + 1 }) ∧
  ∀ (w : Addr) (s t : State), s.ram.wf 0x800 = true → exec (.jsr w) s = .next t →
    exec .rts t = .next { s with ram := t.ram }

/-- The eight branches: their bytes; taken exactly when their flag condition holds, to the next instruction's address plus
the signed displacement modulo 0x10000; nothing else changes either way (44_control_flow R196 to R204,
30_encoding R116). -/
def Obligations.BranchesComplete : Prop :=
  ∀ (d : Byte) (s : State), ∀ e ∈ [((0x90 : Byte), Instr.bcc d, !s.p.c), (0xB0, .bcs d, s.p.c), (0xF0, .beq d, s.p.z),
      (0xD0, .bne d, !s.p.z), (0x30, .bmi d, s.p.n), (0x10, .bpl d, !s.p.n), (0x50, .bvc d, !s.p.v),
      (0x70, .bvs d, s.p.v)],
    (∀ rest, decode (e.1 :: d :: rest) = .ok (e.2.1, rest)) ∧
    exec e.2.1 s = .next { s with pc := if e.2.2 then BitVec.ofInt 16 ((s.pc.toNat : Int) + d.toInt) else s.pc }

/-- CLC, SEC, CLI, SEI, CLD, SED, CLV and NOP: their bytes, 2 cycles each, the one flag written, and nothing else
(45_flags_nop R210 to R217). -/
def Obligations.FlagInstructionsComplete : Prop :=
  OneByte 0x18 .clc 2 ∧ OneByte 0x38 .sec 2 ∧ OneByte 0x58 .cli 2 ∧ OneByte 0x78 .sei 2 ∧ OneByte 0xD8 .cld 2 ∧
  OneByte 0xF8 .sed 2 ∧ OneByte 0xB8 .clv 2 ∧ OneByte 0xEA .nop 2 ∧
  ∀ s : State,
    exec .clc s = .next { s with p := { s.p with c := false } } ∧
    exec .sec s = .next { s with p := { s.p with c := true } } ∧
    exec .cli s = .next { s with p := { s.p with i := false } } ∧
    exec .sei s = .next { s with p := { s.p with i := true } } ∧
    exec .cld s = .next { s with p := { s.p with d := false } } ∧
    exec .sed s = .next { s with p := { s.p with d := true } } ∧
    exec .clv s = .next { s with p := { s.p with v := false } } ∧
    exec .nop s = .next s

/-- The undocumented NOP forms: they run in every state, at every address their operand names, and change nothing; their
27 bytes are the rule's (46_undocumented R221). -/
def Obligations.UndocumentedNopsComplete : Prop :=
  (∀ (op : Byte) (o : NopOperand) (s : State), exec (.nopU op o) s = .next s) ∧
  (∀ (bs rest : List Byte) (op : Byte) (o : NopOperand), decode bs = .ok (.nopU op o, rest) → bs.headD 0 = op ∧
    op ∈ nopOpcodes o.mode) ∧
  ([Mode.implied, .immediate, .zeropage, .zeropageX, .absolute, .absoluteX].flatMap nopOpcodes).length = 27

/-- *DCP, *ISB, *SLO, *RLA, *SRE and *RRA: wherever the read answers they run, one read and one write of the modified byte,
then the compare, subtraction, OR, AND, EOR or addition with it; the carry-in of *ISB is the old carry, that of *RRA the
bit its rotate shifted out (46_undocumented R225 to R230). -/
def Obligations.CombinedInstructionsComplete : Prop :=
  ∀ (m : AddrMode) (s : State), readable (effAddr m s) = true →
    ModifyRuns (.dcp m) m (fun v => BitVec.ofNat 8 (v.toNat + 255))
      (fun v t => t.compared t.a (BitVec.ofNat 8 (v.toNat + 255))) s ∧
    ModifyRuns (.isb m) m (fun v => BitVec.ofNat 8 (v.toNat + 1))
      (fun v t => t.subtracted (BitVec.ofNat 8 (v.toNat + 1))) s ∧
    ModifyRuns (.slo m) m (fun v => (aslOf v).1)
      (fun v t => { t with a := t.a ||| (aslOf v).1, p := t.p.ofCarried (aslOf v).2 (t.a ||| (aslOf v).1) }) s ∧
    ModifyRuns (.rla m) m (fun v => (rolOf s.p.c v).1)
      (fun v t => { t with
        a := t.a &&& (rolOf s.p.c v).1, p := t.p.ofCarried (rolOf s.p.c v).2 (t.a &&& (rolOf s.p.c v).1) }) s ∧
    ModifyRuns (.sre m) m (fun v => (lsrOf v).1)
      (fun v t => { t with a := t.a ^^^ (lsrOf v).1, p := t.p.ofCarried (lsrOf v).2 (t.a ^^^ (lsrOf v).1) }) s ∧
    ModifyRuns (.rra m) m (fun v => (rorOf s.p.c v).1)
      (fun v t => State.added { t with p := { t.p with c := (rorOf s.p.c v).2 } } (rorOf s.p.c v).1) s

/-! Frames: what an instruction leaves unchanged. -/

/-- The frame of the reading instructions LDA, LDX, LDY, ADC, SBC, AND, ORA, EOR, CMP, CPX, CPY, BIT and *LAX: no byte of
any memory changes, no register but the destination, no flag but those of the rule; the PPU is as before unless the
operand is on port 2, where bit 7 of the status and both toggles are cleared; nothing is emitted but at 0x4015 and 0x4016
(10_state R31, 40_load_store R130, 42_arithmetic_logic R161 to R169, 47_ppu_ports R255, 46_undocumented R222). -/
def Obligations.ReadingFrame : Prop :=
  ∀ (o : Operand) (m : AddrMode) (i : Instr) (s t : State),
    i ∈ [.lda o, .ldx o, .ldy o, .adc o, .sbc o, .and o, .ora o, .eor o, .cmp o, .cpx o, .cpy o, .bit m, .lax m] →
    exec i s = .next t →
    (i ∈ [.ldx o, .ldy o, .cmp o, .cpx o, .cpy o, .bit m] → t.a = s.a) ∧
    (i ≠ .ldx o → i ≠ .lax m → t.x = s.x) ∧
    (i ≠ .ldy o → t.y = s.y) ∧
    t.sp = s.sp ∧ t.pc = s.pc ∧ t.p.r = s.p.r ∧ t.p.b = s.p.b ∧ t.p.d = s.p.d ∧ t.p.i = s.p.i ∧
    (i ∉ [.adc o, .sbc o, .bit m] → t.p.v = s.p.v) ∧
    (i ∉ [.adc o, .sbc o, .cmp o, .cpx o, .cpy o] → t.p.c = s.p.c) ∧
    (∀ n, memForm i = some n → onPort (effAddr n s) 2 → t.ppu = { s.ppu with
      status := s.ppu.status &&& 0x7F, addrToggle := false, scrollToggle := false }) ∧
    ((∀ n, memForm i = some n → ¬ onPort (effAddr n s) 2) → t.ppu = s.ppu) ∧
    ((∀ n, memForm i = some n → effAddr n s ≠ 0x4015 ∧ effAddr n s ≠ 0x4016) → t.events = s.events) ∧
    (∀ b, codeByte t b = codeByte s b) ∧ t.ram = s.ram ∧ t.cart = s.cart ∧ t.nmi = s.nmi ∧ t.irq = s.irq ∧
    t.dmaPage = s.dmaPage ∧ t.dmaPending = s.dmaPending ∧ t.faulted = s.faulted ∧ t.env = s.env ∧ t.cycles = s.cycles ∧
    t.stepped = s.stepped

/-- The frame of STA, STX, STY and *SAX: every register and flag as before, and every byte of every memory and every
device register but the one the store to the effective address reaches; a store to port 2 changes nothing
(40_load_store R130, R134 to R136, 46_undocumented R223, 47_ppu_ports R245). -/
def Obligations.StoringFrame : Prop :=
  ∀ (m : AddrMode) (i : Instr) (s t : State), i ∈ [.sta m, .stx m, .sty m, .sax m] → exec i s = .next t →
    t.a = s.a ∧ t.x = s.x ∧ t.y = s.y ∧ t.p = s.p ∧ t.draws = s.draws ∧ StoreKeeps (effAddr m s) s t ∧
    (onPort (effAddr m s) 2 → t = s)

/-- The frame of the read-modify-write instructions on memory, documented and undocumented: A where the rule does not
write it, X, Y, the flags the rule does not write, and every byte of every memory and every device register but those the
read and the store at the effective address reach; on port 2 that is bit 7 of the status and both toggles (10_state R31,
20_memory R87, 42_arithmetic_logic R170, R171, 43_shift_rotate R184, 46_undocumented R225 to R230). -/
def Obligations.ModifyingFrame : Prop :=
  ∀ (m : AddrMode) (i : Instr) (s t : State),
    i ∈ [.inc m, .dec m, .asl (.mem m), .lsr (.mem m), .rol (.mem m), .ror (.mem m), .dcp m, .isb m, .slo m, .rla m,
      .sre m, .rra m] →
    exec i s = .next t →
    (i ∈ [.inc m, .dec m, .asl (.mem m), .lsr (.mem m), .rol (.mem m), .ror (.mem m), .dcp m] → t.a = s.a) ∧
    t.x = s.x ∧ t.y = s.y ∧ t.p.r = s.p.r ∧ t.p.b = s.p.b ∧ t.p.d = s.p.d ∧ t.p.i = s.p.i ∧
    (i ∉ [.isb m, .rra m] → t.p.v = s.p.v) ∧ (i ∈ [.inc m, .dec m] → t.p.c = s.p.c) ∧
    StoreKeeps (effAddr m s) s t ∧
    (onPort (effAddr m s) 2 → t.ppu = { s.ppu with
      status := s.ppu.status &&& 0x7F, addrToggle := false, scrollToggle := false })

/-! Invariants and whole-machine rules. -/

/-- Every step keeps the invariant of the machine: the memories canonical and inside their sizes, the palette of 6-bit
colours, the reserved flag 1, the PPU's counters in range, the unused status bits 0, 64 sprites, and whole background
rows, at most one for each eight scanlines (10_state R28, R40, R43, R48, R51, 47_ppu_ports R252, 48_ppu_rendering R273). -/
def Obligations.StepKeepsInvariant : Prop :=
  ∀ s t : State, s.Inv → step s = .next t → t.Inv

/-- Power-on meets the invariant, whatever legal memories it starts from, and `State.reset` is such a power-on
(10_state R57). -/
def Obligations.ResetMeetsInvariant : Prop :=
  (∀ w : PowerOn, w.Legal → w.reset.Inv) ∧ blankPowerOn.Legal ∧ State.reset.Inv

/-- A step only appends to the output history, and under the invariant's counters and the default timing it emits at most
one frame (20_memory R79, 48_ppu_rendering R271; `events` is the model's, notes/assumptions/7). -/
def Obligations.StepAppendsEvents : Prop :=
  ∀ s t : State, step s = .next t → ∃ es, t.events = s.events ++ es ∧
    (s.env.timing = .standard → s.ppu.cycle < 341 → s.ppu.scanline < 262 → (es.filter Event.isFrame).length ≤ 1)

/-- What no step ever writes, whatever runs: the program ROM, its size, the mirroring and the parameters, and the palette
entries 0x10, 0x14, 0x18 and 0x1C; and no agent of the core asserts the IRQ: it is pending after a step only where the
environment's move left it pending. That move stands between two steps: there is none before the first step after power-on,
none under `never`, and under `any` it sets the flag to what is drawn, where a move is drawn, and nothing else (10_state R36,
R48, R54, R58, 20_memory R75, 47_ppu_ports R252, 49_dma_sequencer R307, 60_exceptions R327; `env`, `draws` and `stepped` are
the model's, notes/assumptions/4 and 6). -/
def Obligations.StepNeverWrites : Prop :=
  (∀ s t : State, step s = .next t → t.cart = s.cart ∧ t.env = s.env ∧
    (∀ i ∈ [0x10, 0x14, 0x18, 0x1C], t.ppu.palette.read i = s.ppu.palette.read i) ∧
    (t.irq = true → (environmentMove s).irq = true) ∧
    (s.env.externalIrq = .never ∨ s.stepped = false → t.irq = true → s.irq = true) ∧ t.stepped = true) ∧
  (∀ w : PowerOn, environmentMove w.reset = w.reset) ∧
  ∀ s : State,
    (s.env.externalIrq = .never ∨ s.stepped = false → environmentMove s = s) ∧
    (s.env.externalIrq = .any → s.stepped = true → environmentMove s =
      { s with irq := (Config.externalIrq s.draws).getD s.irq, draws := s.draws + 1 })

/-- The NMI is pending after a step only in vblank: the step's own dots entered scanline 241 with control bit 7 set, so
the vblank bit is set and the scanline is at most four past it, at the default timing (10_state R35, 48_ppu_rendering
R276, 60_exceptions R328). -/
def Obligations.NmiPendingOnlyInVblank : Prop :=
  ∀ s t : State, s.Inv → s.env.timing = .standard → step s = .next t → t.nmi = true →
    t.ppu.status.getLsbD 7 = true ∧ t.ppu.ctrl.getLsbD 7 = true ∧ 241 ≤ t.ppu.scanline ∧ t.ppu.scanline ≤ 245

/-- The stored break flag is never observable by a program: two states that differ in it alone step to states that differ
in it alone, or stop with the same fault (10_state R29). -/
def Obligations.BreakFlagUnobservable : Prop :=
  ∀ (s : State) (b : Bool),
    (∃ t c, step s = .next t ∧ step (s.withBreak b) = .next (t.withBreak c)) ∨
    ∃ f, step s = .fault f ∧ step (s.withBreak b) = .fault f
end

