-- ==== Sys2Proof/Laws/Cycles.lean ====
section
/-! SUPPORT. The timing of the opcode table, looked up. -/

namespace Sys2Proof

/-- The default `BaseCycles` is the opcode table's column: checked byte by byte. -/
theorem Timing.standard_baseOf (op : Byte) : Timing.standard.baseOf op = baseCycles op := by
  revert op; decide

/-- The default `PagePenalty` is the opcode table's column. -/
theorem Timing.standard_penaltyOf (op : Byte) : Timing.standard.penaltyOf op = pagePenalty op := by
  revert op; decide

end Sys2Proof
end

