-- ==== Sys2Proof/Laws/Decode.lean ====
section
/-! SUPPORT. What the decoder can do: one equation for each operand count, and how it can fail. -/

namespace Sys2Proof

/-- Decoding a one-byte row. -/
theorem decode_zero {op : Byte} (h : operandCount op = 0) (rest : List Byte) :
    decode (op :: rest) = .ok (instrOf op 0 0, rest) := by simp [decode, h]

/-- Decoding a two-byte row. -/
theorem decode_one {op : Byte} (h : operandCount op = 1) (b : Byte) (rest : List Byte) :
    decode (op :: b :: rest) = .ok (instrOf op b 0, rest) := by simp [decode, h]

/-- Decoding a three-byte row. -/
theorem decode_two {op : Byte} (h : operandCount op = 2) (lo hi : Byte) (rest : List Byte) :
    decode (op :: lo :: hi :: rest) = .ok (instrOf op lo hi, rest) := by simp [decode, h]

/-- No row has more than two operand bytes (30_encoding R100). -/
theorem operandCount_le (op : Byte) : operandCount op ≤ 2 := by revert op; decide

/-- Decoding answers exactly by one of the three forms. -/
theorem decode_ok {bs rest : List Byte} {i : Instr} (h : decode bs = .ok (i, rest)) :
    (∃ op, operandCount op = 0 ∧ bs = op :: rest ∧ i = instrOf op 0 0) ∨
    (∃ op b, operandCount op = 1 ∧ bs = op :: b :: rest ∧ i = instrOf op b 0) ∨
    ∃ op lo hi, operandCount op = 2 ∧ bs = op :: lo :: hi :: rest ∧ i = instrOf op lo hi := by
  cases bs with
  | nil => cases h
  | cons op tail =>
    simp only [decode] at h
    split at h
    · next hc => cases h; exact .inl ⟨op, hc, rfl, rfl⟩
    · next hc => cases h; exact .inr (.inl ⟨op, _, hc, rfl, rfl⟩)
    · next hc => cases h; exact .inr (.inr ⟨op, _, _, hc, rfl, rfl⟩)
    · cases h

end Sys2Proof
end

