-- ==== Sys2Proof/Laws/Memory.lean ====
section
/-! SUPPORT. The laws of byte memories: a read after a write, and that every memory operation keeps the canonical
form. -/

namespace Sys2Proof.Machine

@[simp] theorem Memory.read_nil (a : Nat) : Memory.read [] a = unlistedByte := rfl

/-- Below the first cell of a canonical memory every address reads as unlisted. -/
theorem Memory.read_below {lo hi : Nat} : ∀ {m : Memory} {a : Nat}, Memory.wfFrom lo hi m = true → a < lo →
    Memory.read m a = unlistedByte
  | [], _, _, _ => rfl
  | (b, w) :: m, a, h, ha => by
    simp only [Memory.wfFrom, Bool.and_eq_true, decide_eq_true_eq] at h
    have hb : b ≠ a := by omega
    simp only [Memory.read, if_neg hb]
    exact Memory.read_below h.2 (by omega)

/-- A canonical form stays one when its lower bound falls. -/
theorem Memory.wfFrom_mono {lo lo' hi : Nat} (hlo : lo' ≤ lo) : ∀ {m : Memory}, Memory.wfFrom lo hi m = true →
    Memory.wfFrom lo' hi m = true
  | [], _ => rfl
  | (b, w) :: m, h => by
    simp only [Memory.wfFrom, Bool.and_eq_true, decide_eq_true_eq] at h ⊢
    exact ⟨⟨by omega, h.1.2⟩, h.2⟩

/-- Putting a cell in front keeps the canonical form. -/
theorem Memory.cell_wf {lo hi a : Nat} {v : Byte} {m : Memory} (h1 : lo ≤ a) (h2 : a < hi)
    (h : Memory.wfFrom (a + 1) hi m = true) : Memory.wfFrom lo hi (Memory.cell a v m) = true := by
  unfold Memory.cell
  split
  · exact Memory.wfFrom_mono (by omega) h
  · next hv =>
    simp only [Memory.wfFrom, Bool.and_eq_true, decide_eq_true_eq]
    exact ⟨⟨h1, h2, hv⟩, h⟩

theorem Memory.write_wfFrom {hi a : Nat} {v : Byte} (ha : a < hi) : ∀ {m : Memory} {lo : Nat}, lo ≤ a →
    Memory.wfFrom lo hi m = true → Memory.wfFrom lo hi (Memory.write m a v) = true
  | [], lo, hlo, _ => Memory.cell_wf hlo ha rfl
  | (b, w) :: m, lo, hlo, h => by
    have h' := h
    simp only [Memory.wfFrom, Bool.and_eq_true, decide_eq_true_eq] at h'
    unfold Memory.write
    split
    · next hab =>
      apply Memory.cell_wf hlo ha
      simp only [Memory.wfFrom, Bool.and_eq_true, decide_eq_true_eq]
      exact ⟨⟨by omega, h'.1.2⟩, h'.2⟩
    · split
      · next hab => subst hab; exact Memory.cell_wf hlo ha h'.2
      · simp only [Memory.wfFrom, Bool.and_eq_true, decide_eq_true_eq]
        exact ⟨h'.1, Memory.write_wfFrom ha (by omega) h'.2⟩

/-- A write inside the memory keeps its canonical form. -/
theorem Memory.write_wf {size a : Nat} {v : Byte} {m : Memory} (ha : a < size) (h : m.wf size = true) :
    (m.write a v).wf size = true := Memory.write_wfFrom ha (Nat.zero_le a) h

theorem Memory.read_cell_ne {a b : Nat} {v : Byte} {m : Memory} (h : a ≠ b) :
    Memory.read (Memory.cell a v m) b = Memory.read m b := by
  unfold Memory.cell
  split
  · rfl
  · simp [Memory.read, h]

/-- A write leaves every other address alone, in any memory. -/
theorem Memory.read_write_ne {a b : Nat} {v : Byte} (h : a ≠ b) : ∀ {m : Memory},
    Memory.read (Memory.write m a v) b = Memory.read m b
  | [] => Memory.read_cell_ne h
  | (c, w) :: m => by
    unfold Memory.write
    split
    · exact Memory.read_cell_ne h
    · split
      · next hac => subst hac; simp [Memory.read_cell_ne h, Memory.read, h]
      · simp only [Memory.read]
        split
        · rfl
        · exact Memory.read_write_ne h

theorem Memory.read_write_same_from {hi a : Nat} {v : Byte} : ∀ {m : Memory} {lo : Nat},
    Memory.wfFrom lo hi m = true → Memory.read (Memory.write m a v) a = v
  | [], _, _ => by
    unfold Memory.write Memory.cell
    split
    · next h => simp [h]
    · simp [Memory.read]
  | (b, w) :: m, lo, h => by
    have h' := h
    simp only [Memory.wfFrom, Bool.and_eq_true, decide_eq_true_eq] at h'
    unfold Memory.write
    split
    · next hab =>
      unfold Memory.cell
      split
      · next hv =>
        have hne : b ≠ a := by omega
        simp only [Memory.read, if_neg hne, hv]
        exact Memory.read_below h'.2 (by omega)
      · simp [Memory.read]
    · split
      · next hab =>
        subst hab
        unfold Memory.cell
        split
        · next hv => rw [hv]; exact Memory.read_below h'.2 (by omega)
        · simp [Memory.read]
      · next hab =>
        have hne : b ≠ a := fun e => hab e.symm
        simp only [Memory.read, if_neg hne]
        exact Memory.read_write_same_from h'.2

/-- A read after a write to the same address gives the value written. -/
theorem Memory.read_write_same {size a : Nat} {v : Byte} {m : Memory} (h : m.wf size = true) :
    (m.write a v).read a = v := Memory.read_write_same_from h

/-- A read after a write, in a canonical memory. -/
theorem Memory.read_write {size a b : Nat} {v : Byte} {m : Memory} (h : m.wf size = true) :
    (m.write a v).read b = if a = b then v else m.read b := by
  split
  · next e => subst e; exact Memory.read_write_same h
  · next e => exact Memory.read_write_ne e

end Sys2Proof.Machine
end

