-- ==== Sys2Proof/Laws/State.lean ====
section
/-! SUPPORT. One lemma per field per update of the state, each true by rfl, and the laws of Res.andThen. -/

namespace Sys2Proof.Machine

@[simp] theorem Res.andThen_next {α β : Type} (v : α) (f : α → Res β) : Res.andThen (.next v) f = f v := rfl
@[simp] theorem Res.andThen_fault {α β : Type} (e : Fault) (f : α → Res β) : Res.andThen (.fault e) f = .fault e := rfl
@[simp] theorem Res.andThen_refused {α β : Type} (e : Refusal) (f : α → Res β) :
    Res.andThen (.refused e) f = .refused e := rfl

/-- An operation in two parts answers exactly when both parts answer. -/
theorem Res.andThen_eq_next {α β : Type} {r : Res α} {f : α → Res β} {t : β} :
    Res.andThen r f = .next t ↔ ∃ v, r = .next v ∧ f v = .next t := by
  cases r <;> simp [Res.andThen]

@[simp] theorem State.setA_a (s : State) (v : Byte) : (s.setA v).a = v := rfl
@[simp] theorem State.setA_x (s : State) (v : Byte) : (s.setA v).x = s.x := rfl
@[simp] theorem State.setA_y (s : State) (v : Byte) : (s.setA v).y = s.y := rfl
@[simp] theorem State.setA_sp (s : State) (v : Byte) : (s.setA v).sp = s.sp := rfl
@[simp] theorem State.setA_p (s : State) (v : Byte) : (s.setA v).p = s.p := rfl
@[simp] theorem State.setA_pc (s : State) (v : Byte) : (s.setA v).pc = s.pc := rfl
@[simp] theorem State.setA_nmi (s : State) (v : Byte) : (s.setA v).nmi = s.nmi := rfl
@[simp] theorem State.setA_irq (s : State) (v : Byte) : (s.setA v).irq = s.irq := rfl
@[simp] theorem State.setA_dmaPage (s : State) (v : Byte) : (s.setA v).dmaPage = s.dmaPage := rfl
@[simp] theorem State.setA_dmaPending (s : State) (v : Byte) : (s.setA v).dmaPending = s.dmaPending := rfl
@[simp] theorem State.setA_ppu (s : State) (v : Byte) : (s.setA v).ppu = s.ppu := rfl
@[simp] theorem State.setA_ram (s : State) (v : Byte) : (s.setA v).ram = s.ram := rfl
@[simp] theorem State.setA_faulted (s : State) (v : Byte) : (s.setA v).faulted = s.faulted := rfl
@[simp] theorem State.setA_cart (s : State) (v : Byte) : (s.setA v).cart = s.cart := rfl
@[simp] theorem State.setA_env (s : State) (v : Byte) : (s.setA v).env = s.env := rfl
@[simp] theorem State.setA_draws (s : State) (v : Byte) : (s.setA v).draws = s.draws := rfl
@[simp] theorem State.setA_events (s : State) (v : Byte) : (s.setA v).events = s.events := rfl
@[simp] theorem State.setA_cycles (s : State) (v : Byte) : (s.setA v).cycles = s.cycles := rfl
@[simp] theorem State.setA_stepped (s : State) (v : Byte) : (s.setA v).stepped = s.stepped := rfl

@[simp] theorem State.setX_a (s : State) (v : Byte) : (s.setX v).a = s.a := rfl
@[simp] theorem State.setX_x (s : State) (v : Byte) : (s.setX v).x = v := rfl
@[simp] theorem State.setX_y (s : State) (v : Byte) : (s.setX v).y = s.y := rfl
@[simp] theorem State.setX_sp (s : State) (v : Byte) : (s.setX v).sp = s.sp := rfl
@[simp] theorem State.setX_p (s : State) (v : Byte) : (s.setX v).p = s.p := rfl
@[simp] theorem State.setX_pc (s : State) (v : Byte) : (s.setX v).pc = s.pc := rfl
@[simp] theorem State.setX_nmi (s : State) (v : Byte) : (s.setX v).nmi = s.nmi := rfl
@[simp] theorem State.setX_irq (s : State) (v : Byte) : (s.setX v).irq = s.irq := rfl
@[simp] theorem State.setX_dmaPage (s : State) (v : Byte) : (s.setX v).dmaPage = s.dmaPage := rfl
@[simp] theorem State.setX_dmaPending (s : State) (v : Byte) : (s.setX v).dmaPending = s.dmaPending := rfl
@[simp] theorem State.setX_ppu (s : State) (v : Byte) : (s.setX v).ppu = s.ppu := rfl
@[simp] theorem State.setX_ram (s : State) (v : Byte) : (s.setX v).ram = s.ram := rfl
@[simp] theorem State.setX_faulted (s : State) (v : Byte) : (s.setX v).faulted = s.faulted := rfl
@[simp] theorem State.setX_cart (s : State) (v : Byte) : (s.setX v).cart = s.cart := rfl
@[simp] theorem State.setX_env (s : State) (v : Byte) : (s.setX v).env = s.env := rfl
@[simp] theorem State.setX_draws (s : State) (v : Byte) : (s.setX v).draws = s.draws := rfl
@[simp] theorem State.setX_events (s : State) (v : Byte) : (s.setX v).events = s.events := rfl
@[simp] theorem State.setX_cycles (s : State) (v : Byte) : (s.setX v).cycles = s.cycles := rfl
@[simp] theorem State.setX_stepped (s : State) (v : Byte) : (s.setX v).stepped = s.stepped := rfl

@[simp] theorem State.setY_a (s : State) (v : Byte) : (s.setY v).a = s.a := rfl
@[simp] theorem State.setY_x (s : State) (v : Byte) : (s.setY v).x = s.x := rfl
@[simp] theorem State.setY_y (s : State) (v : Byte) : (s.setY v).y = v := rfl
@[simp] theorem State.setY_sp (s : State) (v : Byte) : (s.setY v).sp = s.sp := rfl
@[simp] theorem State.setY_p (s : State) (v : Byte) : (s.setY v).p = s.p := rfl
@[simp] theorem State.setY_pc (s : State) (v : Byte) : (s.setY v).pc = s.pc := rfl
@[simp] theorem State.setY_nmi (s : State) (v : Byte) : (s.setY v).nmi = s.nmi := rfl
@[simp] theorem State.setY_irq (s : State) (v : Byte) : (s.setY v).irq = s.irq := rfl
@[simp] theorem State.setY_dmaPage (s : State) (v : Byte) : (s.setY v).dmaPage = s.dmaPage := rfl
@[simp] theorem State.setY_dmaPending (s : State) (v : Byte) : (s.setY v).dmaPending = s.dmaPending := rfl
@[simp] theorem State.setY_ppu (s : State) (v : Byte) : (s.setY v).ppu = s.ppu := rfl
@[simp] theorem State.setY_ram (s : State) (v : Byte) : (s.setY v).ram = s.ram := rfl
@[simp] theorem State.setY_faulted (s : State) (v : Byte) : (s.setY v).faulted = s.faulted := rfl
@[simp] theorem State.setY_cart (s : State) (v : Byte) : (s.setY v).cart = s.cart := rfl
@[simp] theorem State.setY_env (s : State) (v : Byte) : (s.setY v).env = s.env := rfl
@[simp] theorem State.setY_draws (s : State) (v : Byte) : (s.setY v).draws = s.draws := rfl
@[simp] theorem State.setY_events (s : State) (v : Byte) : (s.setY v).events = s.events := rfl
@[simp] theorem State.setY_cycles (s : State) (v : Byte) : (s.setY v).cycles = s.cycles := rfl
@[simp] theorem State.setY_stepped (s : State) (v : Byte) : (s.setY v).stepped = s.stepped := rfl

@[simp] theorem State.setSp_a (s : State) (v : Byte) : (s.setSp v).a = s.a := rfl
@[simp] theorem State.setSp_x (s : State) (v : Byte) : (s.setSp v).x = s.x := rfl
@[simp] theorem State.setSp_y (s : State) (v : Byte) : (s.setSp v).y = s.y := rfl
@[simp] theorem State.setSp_sp (s : State) (v : Byte) : (s.setSp v).sp = v := rfl
@[simp] theorem State.setSp_p (s : State) (v : Byte) : (s.setSp v).p = s.p := rfl
@[simp] theorem State.setSp_pc (s : State) (v : Byte) : (s.setSp v).pc = s.pc := rfl
@[simp] theorem State.setSp_nmi (s : State) (v : Byte) : (s.setSp v).nmi = s.nmi := rfl
@[simp] theorem State.setSp_irq (s : State) (v : Byte) : (s.setSp v).irq = s.irq := rfl
@[simp] theorem State.setSp_dmaPage (s : State) (v : Byte) : (s.setSp v).dmaPage = s.dmaPage := rfl
@[simp] theorem State.setSp_dmaPending (s : State) (v : Byte) : (s.setSp v).dmaPending = s.dmaPending := rfl
@[simp] theorem State.setSp_ppu (s : State) (v : Byte) : (s.setSp v).ppu = s.ppu := rfl
@[simp] theorem State.setSp_ram (s : State) (v : Byte) : (s.setSp v).ram = s.ram := rfl
@[simp] theorem State.setSp_faulted (s : State) (v : Byte) : (s.setSp v).faulted = s.faulted := rfl
@[simp] theorem State.setSp_cart (s : State) (v : Byte) : (s.setSp v).cart = s.cart := rfl
@[simp] theorem State.setSp_env (s : State) (v : Byte) : (s.setSp v).env = s.env := rfl
@[simp] theorem State.setSp_draws (s : State) (v : Byte) : (s.setSp v).draws = s.draws := rfl
@[simp] theorem State.setSp_events (s : State) (v : Byte) : (s.setSp v).events = s.events := rfl
@[simp] theorem State.setSp_cycles (s : State) (v : Byte) : (s.setSp v).cycles = s.cycles := rfl
@[simp] theorem State.setSp_stepped (s : State) (v : Byte) : (s.setSp v).stepped = s.stepped := rfl

@[simp] theorem State.setP_a (s : State) (v : Flags) : (s.setP v).a = s.a := rfl
@[simp] theorem State.setP_x (s : State) (v : Flags) : (s.setP v).x = s.x := rfl
@[simp] theorem State.setP_y (s : State) (v : Flags) : (s.setP v).y = s.y := rfl
@[simp] theorem State.setP_sp (s : State) (v : Flags) : (s.setP v).sp = s.sp := rfl
@[simp] theorem State.setP_p (s : State) (v : Flags) : (s.setP v).p = v := rfl
@[simp] theorem State.setP_pc (s : State) (v : Flags) : (s.setP v).pc = s.pc := rfl
@[simp] theorem State.setP_nmi (s : State) (v : Flags) : (s.setP v).nmi = s.nmi := rfl
@[simp] theorem State.setP_irq (s : State) (v : Flags) : (s.setP v).irq = s.irq := rfl
@[simp] theorem State.setP_dmaPage (s : State) (v : Flags) : (s.setP v).dmaPage = s.dmaPage := rfl
@[simp] theorem State.setP_dmaPending (s : State) (v : Flags) : (s.setP v).dmaPending = s.dmaPending := rfl
@[simp] theorem State.setP_ppu (s : State) (v : Flags) : (s.setP v).ppu = s.ppu := rfl
@[simp] theorem State.setP_ram (s : State) (v : Flags) : (s.setP v).ram = s.ram := rfl
@[simp] theorem State.setP_faulted (s : State) (v : Flags) : (s.setP v).faulted = s.faulted := rfl
@[simp] theorem State.setP_cart (s : State) (v : Flags) : (s.setP v).cart = s.cart := rfl
@[simp] theorem State.setP_env (s : State) (v : Flags) : (s.setP v).env = s.env := rfl
@[simp] theorem State.setP_draws (s : State) (v : Flags) : (s.setP v).draws = s.draws := rfl
@[simp] theorem State.setP_events (s : State) (v : Flags) : (s.setP v).events = s.events := rfl
@[simp] theorem State.setP_cycles (s : State) (v : Flags) : (s.setP v).cycles = s.cycles := rfl
@[simp] theorem State.setP_stepped (s : State) (v : Flags) : (s.setP v).stepped = s.stepped := rfl

@[simp] theorem State.setPc_a (s : State) (v : Addr) : (s.setPc v).a = s.a := rfl
@[simp] theorem State.setPc_x (s : State) (v : Addr) : (s.setPc v).x = s.x := rfl
@[simp] theorem State.setPc_y (s : State) (v : Addr) : (s.setPc v).y = s.y := rfl
@[simp] theorem State.setPc_sp (s : State) (v : Addr) : (s.setPc v).sp = s.sp := rfl
@[simp] theorem State.setPc_p (s : State) (v : Addr) : (s.setPc v).p = s.p := rfl
@[simp] theorem State.setPc_pc (s : State) (v : Addr) : (s.setPc v).pc = v := rfl
@[simp] theorem State.setPc_nmi (s : State) (v : Addr) : (s.setPc v).nmi = s.nmi := rfl
@[simp] theorem State.setPc_irq (s : State) (v : Addr) : (s.setPc v).irq = s.irq := rfl
@[simp] theorem State.setPc_dmaPage (s : State) (v : Addr) : (s.setPc v).dmaPage = s.dmaPage := rfl
@[simp] theorem State.setPc_dmaPending (s : State) (v : Addr) : (s.setPc v).dmaPending = s.dmaPending := rfl
@[simp] theorem State.setPc_ppu (s : State) (v : Addr) : (s.setPc v).ppu = s.ppu := rfl
@[simp] theorem State.setPc_ram (s : State) (v : Addr) : (s.setPc v).ram = s.ram := rfl
@[simp] theorem State.setPc_faulted (s : State) (v : Addr) : (s.setPc v).faulted = s.faulted := rfl
@[simp] theorem State.setPc_cart (s : State) (v : Addr) : (s.setPc v).cart = s.cart := rfl
@[simp] theorem State.setPc_env (s : State) (v : Addr) : (s.setPc v).env = s.env := rfl
@[simp] theorem State.setPc_draws (s : State) (v : Addr) : (s.setPc v).draws = s.draws := rfl
@[simp] theorem State.setPc_events (s : State) (v : Addr) : (s.setPc v).events = s.events := rfl
@[simp] theorem State.setPc_cycles (s : State) (v : Addr) : (s.setPc v).cycles = s.cycles := rfl
@[simp] theorem State.setPc_stepped (s : State) (v : Addr) : (s.setPc v).stepped = s.stepped := rfl

@[simp] theorem State.setNmi_a (s : State) (v : Bool) : (s.setNmi v).a = s.a := rfl
@[simp] theorem State.setNmi_x (s : State) (v : Bool) : (s.setNmi v).x = s.x := rfl
@[simp] theorem State.setNmi_y (s : State) (v : Bool) : (s.setNmi v).y = s.y := rfl
@[simp] theorem State.setNmi_sp (s : State) (v : Bool) : (s.setNmi v).sp = s.sp := rfl
@[simp] theorem State.setNmi_p (s : State) (v : Bool) : (s.setNmi v).p = s.p := rfl
@[simp] theorem State.setNmi_pc (s : State) (v : Bool) : (s.setNmi v).pc = s.pc := rfl
@[simp] theorem State.setNmi_nmi (s : State) (v : Bool) : (s.setNmi v).nmi = v := rfl
@[simp] theorem State.setNmi_irq (s : State) (v : Bool) : (s.setNmi v).irq = s.irq := rfl
@[simp] theorem State.setNmi_dmaPage (s : State) (v : Bool) : (s.setNmi v).dmaPage = s.dmaPage := rfl
@[simp] theorem State.setNmi_dmaPending (s : State) (v : Bool) : (s.setNmi v).dmaPending = s.dmaPending := rfl
@[simp] theorem State.setNmi_ppu (s : State) (v : Bool) : (s.setNmi v).ppu = s.ppu := rfl
@[simp] theorem State.setNmi_ram (s : State) (v : Bool) : (s.setNmi v).ram = s.ram := rfl
@[simp] theorem State.setNmi_faulted (s : State) (v : Bool) : (s.setNmi v).faulted = s.faulted := rfl
@[simp] theorem State.setNmi_cart (s : State) (v : Bool) : (s.setNmi v).cart = s.cart := rfl
@[simp] theorem State.setNmi_env (s : State) (v : Bool) : (s.setNmi v).env = s.env := rfl
@[simp] theorem State.setNmi_draws (s : State) (v : Bool) : (s.setNmi v).draws = s.draws := rfl
@[simp] theorem State.setNmi_events (s : State) (v : Bool) : (s.setNmi v).events = s.events := rfl
@[simp] theorem State.setNmi_cycles (s : State) (v : Bool) : (s.setNmi v).cycles = s.cycles := rfl
@[simp] theorem State.setNmi_stepped (s : State) (v : Bool) : (s.setNmi v).stepped = s.stepped := rfl

@[simp] theorem State.setIrq_a (s : State) (v : Bool) : (s.setIrq v).a = s.a := rfl
@[simp] theorem State.setIrq_x (s : State) (v : Bool) : (s.setIrq v).x = s.x := rfl
@[simp] theorem State.setIrq_y (s : State) (v : Bool) : (s.setIrq v).y = s.y := rfl
@[simp] theorem State.setIrq_sp (s : State) (v : Bool) : (s.setIrq v).sp = s.sp := rfl
@[simp] theorem State.setIrq_p (s : State) (v : Bool) : (s.setIrq v).p = s.p := rfl
@[simp] theorem State.setIrq_pc (s : State) (v : Bool) : (s.setIrq v).pc = s.pc := rfl
@[simp] theorem State.setIrq_nmi (s : State) (v : Bool) : (s.setIrq v).nmi = s.nmi := rfl
@[simp] theorem State.setIrq_irq (s : State) (v : Bool) : (s.setIrq v).irq = v := rfl
@[simp] theorem State.setIrq_dmaPage (s : State) (v : Bool) : (s.setIrq v).dmaPage = s.dmaPage := rfl
@[simp] theorem State.setIrq_dmaPending (s : State) (v : Bool) : (s.setIrq v).dmaPending = s.dmaPending := rfl
@[simp] theorem State.setIrq_ppu (s : State) (v : Bool) : (s.setIrq v).ppu = s.ppu := rfl
@[simp] theorem State.setIrq_ram (s : State) (v : Bool) : (s.setIrq v).ram = s.ram := rfl
@[simp] theorem State.setIrq_faulted (s : State) (v : Bool) : (s.setIrq v).faulted = s.faulted := rfl
@[simp] theorem State.setIrq_cart (s : State) (v : Bool) : (s.setIrq v).cart = s.cart := rfl
@[simp] theorem State.setIrq_env (s : State) (v : Bool) : (s.setIrq v).env = s.env := rfl
@[simp] theorem State.setIrq_draws (s : State) (v : Bool) : (s.setIrq v).draws = s.draws := rfl
@[simp] theorem State.setIrq_events (s : State) (v : Bool) : (s.setIrq v).events = s.events := rfl
@[simp] theorem State.setIrq_cycles (s : State) (v : Bool) : (s.setIrq v).cycles = s.cycles := rfl
@[simp] theorem State.setIrq_stepped (s : State) (v : Bool) : (s.setIrq v).stepped = s.stepped := rfl

@[simp] theorem State.setDmaPage_a (s : State) (v : Byte) : (s.setDmaPage v).a = s.a := rfl
@[simp] theorem State.setDmaPage_x (s : State) (v : Byte) : (s.setDmaPage v).x = s.x := rfl
@[simp] theorem State.setDmaPage_y (s : State) (v : Byte) : (s.setDmaPage v).y = s.y := rfl
@[simp] theorem State.setDmaPage_sp (s : State) (v : Byte) : (s.setDmaPage v).sp = s.sp := rfl
@[simp] theorem State.setDmaPage_p (s : State) (v : Byte) : (s.setDmaPage v).p = s.p := rfl
@[simp] theorem State.setDmaPage_pc (s : State) (v : Byte) : (s.setDmaPage v).pc = s.pc := rfl
@[simp] theorem State.setDmaPage_nmi (s : State) (v : Byte) : (s.setDmaPage v).nmi = s.nmi := rfl
@[simp] theorem State.setDmaPage_irq (s : State) (v : Byte) : (s.setDmaPage v).irq = s.irq := rfl
@[simp] theorem State.setDmaPage_dmaPage (s : State) (v : Byte) : (s.setDmaPage v).dmaPage = v := rfl
@[simp] theorem State.setDmaPage_dmaPending (s : State) (v : Byte) : (s.setDmaPage v).dmaPending = s.dmaPending := rfl
@[simp] theorem State.setDmaPage_ppu (s : State) (v : Byte) : (s.setDmaPage v).ppu = s.ppu := rfl
@[simp] theorem State.setDmaPage_ram (s : State) (v : Byte) : (s.setDmaPage v).ram = s.ram := rfl
@[simp] theorem State.setDmaPage_faulted (s : State) (v : Byte) : (s.setDmaPage v).faulted = s.faulted := rfl
@[simp] theorem State.setDmaPage_cart (s : State) (v : Byte) : (s.setDmaPage v).cart = s.cart := rfl
@[simp] theorem State.setDmaPage_env (s : State) (v : Byte) : (s.setDmaPage v).env = s.env := rfl
@[simp] theorem State.setDmaPage_draws (s : State) (v : Byte) : (s.setDmaPage v).draws = s.draws := rfl
@[simp] theorem State.setDmaPage_events (s : State) (v : Byte) : (s.setDmaPage v).events = s.events := rfl
@[simp] theorem State.setDmaPage_cycles (s : State) (v : Byte) : (s.setDmaPage v).cycles = s.cycles := rfl
@[simp] theorem State.setDmaPage_stepped (s : State) (v : Byte) : (s.setDmaPage v).stepped = s.stepped := rfl

@[simp] theorem State.setDmaPending_a (s : State) (v : Bool) : (s.setDmaPending v).a = s.a := rfl
@[simp] theorem State.setDmaPending_x (s : State) (v : Bool) : (s.setDmaPending v).x = s.x := rfl
@[simp] theorem State.setDmaPending_y (s : State) (v : Bool) : (s.setDmaPending v).y = s.y := rfl
@[simp] theorem State.setDmaPending_sp (s : State) (v : Bool) : (s.setDmaPending v).sp = s.sp := rfl
@[simp] theorem State.setDmaPending_p (s : State) (v : Bool) : (s.setDmaPending v).p = s.p := rfl
@[simp] theorem State.setDmaPending_pc (s : State) (v : Bool) : (s.setDmaPending v).pc = s.pc := rfl
@[simp] theorem State.setDmaPending_nmi (s : State) (v : Bool) : (s.setDmaPending v).nmi = s.nmi := rfl
@[simp] theorem State.setDmaPending_irq (s : State) (v : Bool) : (s.setDmaPending v).irq = s.irq := rfl
@[simp] theorem State.setDmaPending_dmaPage (s : State) (v : Bool) : (s.setDmaPending v).dmaPage = s.dmaPage := rfl
@[simp] theorem State.setDmaPending_dmaPending (s : State) (v : Bool) : (s.setDmaPending v).dmaPending = v := rfl
@[simp] theorem State.setDmaPending_ppu (s : State) (v : Bool) : (s.setDmaPending v).ppu = s.ppu := rfl
@[simp] theorem State.setDmaPending_ram (s : State) (v : Bool) : (s.setDmaPending v).ram = s.ram := rfl
@[simp] theorem State.setDmaPending_faulted (s : State) (v : Bool) : (s.setDmaPending v).faulted = s.faulted := rfl
@[simp] theorem State.setDmaPending_cart (s : State) (v : Bool) : (s.setDmaPending v).cart = s.cart := rfl
@[simp] theorem State.setDmaPending_env (s : State) (v : Bool) : (s.setDmaPending v).env = s.env := rfl
@[simp] theorem State.setDmaPending_draws (s : State) (v : Bool) : (s.setDmaPending v).draws = s.draws := rfl
@[simp] theorem State.setDmaPending_events (s : State) (v : Bool) : (s.setDmaPending v).events = s.events := rfl
@[simp] theorem State.setDmaPending_cycles (s : State) (v : Bool) : (s.setDmaPending v).cycles = s.cycles := rfl
@[simp] theorem State.setDmaPending_stepped (s : State) (v : Bool) : (s.setDmaPending v).stepped = s.stepped := rfl

@[simp] theorem State.setPpu_a (s : State) (v : Ppu) : (s.setPpu v).a = s.a := rfl
@[simp] theorem State.setPpu_x (s : State) (v : Ppu) : (s.setPpu v).x = s.x := rfl
@[simp] theorem State.setPpu_y (s : State) (v : Ppu) : (s.setPpu v).y = s.y := rfl
@[simp] theorem State.setPpu_sp (s : State) (v : Ppu) : (s.setPpu v).sp = s.sp := rfl
@[simp] theorem State.setPpu_p (s : State) (v : Ppu) : (s.setPpu v).p = s.p := rfl
@[simp] theorem State.setPpu_pc (s : State) (v : Ppu) : (s.setPpu v).pc = s.pc := rfl
@[simp] theorem State.setPpu_nmi (s : State) (v : Ppu) : (s.setPpu v).nmi = s.nmi := rfl
@[simp] theorem State.setPpu_irq (s : State) (v : Ppu) : (s.setPpu v).irq = s.irq := rfl
@[simp] theorem State.setPpu_dmaPage (s : State) (v : Ppu) : (s.setPpu v).dmaPage = s.dmaPage := rfl
@[simp] theorem State.setPpu_dmaPending (s : State) (v : Ppu) : (s.setPpu v).dmaPending = s.dmaPending := rfl
@[simp] theorem State.setPpu_ppu (s : State) (v : Ppu) : (s.setPpu v).ppu = v := rfl
@[simp] theorem State.setPpu_ram (s : State) (v : Ppu) : (s.setPpu v).ram = s.ram := rfl
@[simp] theorem State.setPpu_faulted (s : State) (v : Ppu) : (s.setPpu v).faulted = s.faulted := rfl
@[simp] theorem State.setPpu_cart (s : State) (v : Ppu) : (s.setPpu v).cart = s.cart := rfl
@[simp] theorem State.setPpu_env (s : State) (v : Ppu) : (s.setPpu v).env = s.env := rfl
@[simp] theorem State.setPpu_draws (s : State) (v : Ppu) : (s.setPpu v).draws = s.draws := rfl
@[simp] theorem State.setPpu_events (s : State) (v : Ppu) : (s.setPpu v).events = s.events := rfl
@[simp] theorem State.setPpu_cycles (s : State) (v : Ppu) : (s.setPpu v).cycles = s.cycles := rfl
@[simp] theorem State.setPpu_stepped (s : State) (v : Ppu) : (s.setPpu v).stepped = s.stepped := rfl

@[simp] theorem State.setRam_a (s : State) (v : Memory) : (s.setRam v).a = s.a := rfl
@[simp] theorem State.setRam_x (s : State) (v : Memory) : (s.setRam v).x = s.x := rfl
@[simp] theorem State.setRam_y (s : State) (v : Memory) : (s.setRam v).y = s.y := rfl
@[simp] theorem State.setRam_sp (s : State) (v : Memory) : (s.setRam v).sp = s.sp := rfl
@[simp] theorem State.setRam_p (s : State) (v : Memory) : (s.setRam v).p = s.p := rfl
@[simp] theorem State.setRam_pc (s : State) (v : Memory) : (s.setRam v).pc = s.pc := rfl
@[simp] theorem State.setRam_nmi (s : State) (v : Memory) : (s.setRam v).nmi = s.nmi := rfl
@[simp] theorem State.setRam_irq (s : State) (v : Memory) : (s.setRam v).irq = s.irq := rfl
@[simp] theorem State.setRam_dmaPage (s : State) (v : Memory) : (s.setRam v).dmaPage = s.dmaPage := rfl
@[simp] theorem State.setRam_dmaPending (s : State) (v : Memory) : (s.setRam v).dmaPending = s.dmaPending := rfl
@[simp] theorem State.setRam_ppu (s : State) (v : Memory) : (s.setRam v).ppu = s.ppu := rfl
@[simp] theorem State.setRam_ram (s : State) (v : Memory) : (s.setRam v).ram = v := rfl
@[simp] theorem State.setRam_faulted (s : State) (v : Memory) : (s.setRam v).faulted = s.faulted := rfl
@[simp] theorem State.setRam_cart (s : State) (v : Memory) : (s.setRam v).cart = s.cart := rfl
@[simp] theorem State.setRam_env (s : State) (v : Memory) : (s.setRam v).env = s.env := rfl
@[simp] theorem State.setRam_draws (s : State) (v : Memory) : (s.setRam v).draws = s.draws := rfl
@[simp] theorem State.setRam_events (s : State) (v : Memory) : (s.setRam v).events = s.events := rfl
@[simp] theorem State.setRam_cycles (s : State) (v : Memory) : (s.setRam v).cycles = s.cycles := rfl
@[simp] theorem State.setRam_stepped (s : State) (v : Memory) : (s.setRam v).stepped = s.stepped := rfl

@[simp] theorem State.setCycles_a (s : State) (v : Nat) : (s.setCycles v).a = s.a := rfl
@[simp] theorem State.setCycles_x (s : State) (v : Nat) : (s.setCycles v).x = s.x := rfl
@[simp] theorem State.setCycles_y (s : State) (v : Nat) : (s.setCycles v).y = s.y := rfl
@[simp] theorem State.setCycles_sp (s : State) (v : Nat) : (s.setCycles v).sp = s.sp := rfl
@[simp] theorem State.setCycles_p (s : State) (v : Nat) : (s.setCycles v).p = s.p := rfl
@[simp] theorem State.setCycles_pc (s : State) (v : Nat) : (s.setCycles v).pc = s.pc := rfl
@[simp] theorem State.setCycles_nmi (s : State) (v : Nat) : (s.setCycles v).nmi = s.nmi := rfl
@[simp] theorem State.setCycles_irq (s : State) (v : Nat) : (s.setCycles v).irq = s.irq := rfl
@[simp] theorem State.setCycles_dmaPage (s : State) (v : Nat) : (s.setCycles v).dmaPage = s.dmaPage := rfl
@[simp] theorem State.setCycles_dmaPending (s : State) (v : Nat) : (s.setCycles v).dmaPending = s.dmaPending := rfl
@[simp] theorem State.setCycles_ppu (s : State) (v : Nat) : (s.setCycles v).ppu = s.ppu := rfl
@[simp] theorem State.setCycles_ram (s : State) (v : Nat) : (s.setCycles v).ram = s.ram := rfl
@[simp] theorem State.setCycles_faulted (s : State) (v : Nat) : (s.setCycles v).faulted = s.faulted := rfl
@[simp] theorem State.setCycles_cart (s : State) (v : Nat) : (s.setCycles v).cart = s.cart := rfl
@[simp] theorem State.setCycles_env (s : State) (v : Nat) : (s.setCycles v).env = s.env := rfl
@[simp] theorem State.setCycles_draws (s : State) (v : Nat) : (s.setCycles v).draws = s.draws := rfl
@[simp] theorem State.setCycles_events (s : State) (v : Nat) : (s.setCycles v).events = s.events := rfl
@[simp] theorem State.setCycles_cycles (s : State) (v : Nat) : (s.setCycles v).cycles = v := rfl
@[simp] theorem State.setCycles_stepped (s : State) (v : Nat) : (s.setCycles v).stepped = s.stepped := rfl

@[simp] theorem State.setStepped_a (s : State) (v : Bool) : (s.setStepped v).a = s.a := rfl
@[simp] theorem State.setStepped_x (s : State) (v : Bool) : (s.setStepped v).x = s.x := rfl
@[simp] theorem State.setStepped_y (s : State) (v : Bool) : (s.setStepped v).y = s.y := rfl
@[simp] theorem State.setStepped_sp (s : State) (v : Bool) : (s.setStepped v).sp = s.sp := rfl
@[simp] theorem State.setStepped_p (s : State) (v : Bool) : (s.setStepped v).p = s.p := rfl
@[simp] theorem State.setStepped_pc (s : State) (v : Bool) : (s.setStepped v).pc = s.pc := rfl
@[simp] theorem State.setStepped_nmi (s : State) (v : Bool) : (s.setStepped v).nmi = s.nmi := rfl
@[simp] theorem State.setStepped_irq (s : State) (v : Bool) : (s.setStepped v).irq = s.irq := rfl
@[simp] theorem State.setStepped_dmaPage (s : State) (v : Bool) : (s.setStepped v).dmaPage = s.dmaPage := rfl
@[simp] theorem State.setStepped_dmaPending (s : State) (v : Bool) : (s.setStepped v).dmaPending = s.dmaPending := rfl
@[simp] theorem State.setStepped_ppu (s : State) (v : Bool) : (s.setStepped v).ppu = s.ppu := rfl
@[simp] theorem State.setStepped_ram (s : State) (v : Bool) : (s.setStepped v).ram = s.ram := rfl
@[simp] theorem State.setStepped_faulted (s : State) (v : Bool) : (s.setStepped v).faulted = s.faulted := rfl
@[simp] theorem State.setStepped_cart (s : State) (v : Bool) : (s.setStepped v).cart = s.cart := rfl
@[simp] theorem State.setStepped_env (s : State) (v : Bool) : (s.setStepped v).env = s.env := rfl
@[simp] theorem State.setStepped_draws (s : State) (v : Bool) : (s.setStepped v).draws = s.draws := rfl
@[simp] theorem State.setStepped_events (s : State) (v : Bool) : (s.setStepped v).events = s.events := rfl
@[simp] theorem State.setStepped_cycles (s : State) (v : Bool) : (s.setStepped v).cycles = s.cycles := rfl
@[simp] theorem State.setStepped_stepped (s : State) (v : Bool) : (s.setStepped v).stepped = v := rfl

@[simp] theorem State.emit_a (s : State) (e : Event) : (s.emit e).a = s.a := rfl
@[simp] theorem State.emit_x (s : State) (e : Event) : (s.emit e).x = s.x := rfl
@[simp] theorem State.emit_y (s : State) (e : Event) : (s.emit e).y = s.y := rfl
@[simp] theorem State.emit_sp (s : State) (e : Event) : (s.emit e).sp = s.sp := rfl
@[simp] theorem State.emit_p (s : State) (e : Event) : (s.emit e).p = s.p := rfl
@[simp] theorem State.emit_pc (s : State) (e : Event) : (s.emit e).pc = s.pc := rfl
@[simp] theorem State.emit_nmi (s : State) (e : Event) : (s.emit e).nmi = s.nmi := rfl
@[simp] theorem State.emit_irq (s : State) (e : Event) : (s.emit e).irq = s.irq := rfl
@[simp] theorem State.emit_dmaPage (s : State) (e : Event) : (s.emit e).dmaPage = s.dmaPage := rfl
@[simp] theorem State.emit_dmaPending (s : State) (e : Event) : (s.emit e).dmaPending = s.dmaPending := rfl
@[simp] theorem State.emit_ppu (s : State) (e : Event) : (s.emit e).ppu = s.ppu := rfl
@[simp] theorem State.emit_ram (s : State) (e : Event) : (s.emit e).ram = s.ram := rfl
@[simp] theorem State.emit_faulted (s : State) (e : Event) : (s.emit e).faulted = s.faulted := rfl
@[simp] theorem State.emit_cart (s : State) (e : Event) : (s.emit e).cart = s.cart := rfl
@[simp] theorem State.emit_env (s : State) (e : Event) : (s.emit e).env = s.env := rfl
@[simp] theorem State.emit_draws (s : State) (e : Event) : (s.emit e).draws = s.draws := rfl
@[simp] theorem State.emit_events (s : State) (e : Event) : (s.emit e).events = s.events ++ [e] := rfl
@[simp] theorem State.emit_cycles (s : State) (e : Event) : (s.emit e).cycles = s.cycles := rfl
@[simp] theorem State.emit_stepped (s : State) (e : Event) : (s.emit e).stepped = s.stepped := rfl

@[simp] theorem State.drawn_a (s : State) : s.drawn.a = s.a := rfl
@[simp] theorem State.drawn_x (s : State) : s.drawn.x = s.x := rfl
@[simp] theorem State.drawn_y (s : State) : s.drawn.y = s.y := rfl
@[simp] theorem State.drawn_sp (s : State) : s.drawn.sp = s.sp := rfl
@[simp] theorem State.drawn_p (s : State) : s.drawn.p = s.p := rfl
@[simp] theorem State.drawn_pc (s : State) : s.drawn.pc = s.pc := rfl
@[simp] theorem State.drawn_nmi (s : State) : s.drawn.nmi = s.nmi := rfl
@[simp] theorem State.drawn_irq (s : State) : s.drawn.irq = s.irq := rfl
@[simp] theorem State.drawn_dmaPage (s : State) : s.drawn.dmaPage = s.dmaPage := rfl
@[simp] theorem State.drawn_dmaPending (s : State) : s.drawn.dmaPending = s.dmaPending := rfl
@[simp] theorem State.drawn_ppu (s : State) : s.drawn.ppu = s.ppu := rfl
@[simp] theorem State.drawn_ram (s : State) : s.drawn.ram = s.ram := rfl
@[simp] theorem State.drawn_faulted (s : State) : s.drawn.faulted = s.faulted := rfl
@[simp] theorem State.drawn_cart (s : State) : s.drawn.cart = s.cart := rfl
@[simp] theorem State.drawn_env (s : State) : s.drawn.env = s.env := rfl
@[simp] theorem State.drawn_draws (s : State) : s.drawn.draws = s.draws + 1 := rfl
@[simp] theorem State.drawn_events (s : State) : s.drawn.events = s.events := rfl
@[simp] theorem State.drawn_cycles (s : State) : s.drawn.cycles = s.cycles := rfl
@[simp] theorem State.drawn_stepped (s : State) : s.drawn.stepped = s.stepped := rfl

@[simp] theorem State.setNZ_a (s : State) (v : Byte) : (s.setNZ v).a = s.a := rfl
@[simp] theorem State.setNZ_x (s : State) (v : Byte) : (s.setNZ v).x = s.x := rfl
@[simp] theorem State.setNZ_y (s : State) (v : Byte) : (s.setNZ v).y = s.y := rfl
@[simp] theorem State.setNZ_sp (s : State) (v : Byte) : (s.setNZ v).sp = s.sp := rfl
@[simp] theorem State.setNZ_p (s : State) (v : Byte) : (s.setNZ v).p = s.p.setNZ v := rfl
@[simp] theorem State.setNZ_pc (s : State) (v : Byte) : (s.setNZ v).pc = s.pc := rfl
@[simp] theorem State.setNZ_nmi (s : State) (v : Byte) : (s.setNZ v).nmi = s.nmi := rfl
@[simp] theorem State.setNZ_irq (s : State) (v : Byte) : (s.setNZ v).irq = s.irq := rfl
@[simp] theorem State.setNZ_dmaPage (s : State) (v : Byte) : (s.setNZ v).dmaPage = s.dmaPage := rfl
@[simp] theorem State.setNZ_dmaPending (s : State) (v : Byte) : (s.setNZ v).dmaPending = s.dmaPending := rfl
@[simp] theorem State.setNZ_ppu (s : State) (v : Byte) : (s.setNZ v).ppu = s.ppu := rfl
@[simp] theorem State.setNZ_ram (s : State) (v : Byte) : (s.setNZ v).ram = s.ram := rfl
@[simp] theorem State.setNZ_faulted (s : State) (v : Byte) : (s.setNZ v).faulted = s.faulted := rfl
@[simp] theorem State.setNZ_cart (s : State) (v : Byte) : (s.setNZ v).cart = s.cart := rfl
@[simp] theorem State.setNZ_env (s : State) (v : Byte) : (s.setNZ v).env = s.env := rfl
@[simp] theorem State.setNZ_draws (s : State) (v : Byte) : (s.setNZ v).draws = s.draws := rfl
@[simp] theorem State.setNZ_events (s : State) (v : Byte) : (s.setNZ v).events = s.events := rfl
@[simp] theorem State.setNZ_cycles (s : State) (v : Byte) : (s.setNZ v).cycles = s.cycles := rfl
@[simp] theorem State.setNZ_stepped (s : State) (v : Byte) : (s.setNZ v).stepped = s.stepped := rfl

@[simp] theorem State.setC_a (s : State) (v : Bool) : (s.setC v).a = s.a := rfl
@[simp] theorem State.setC_x (s : State) (v : Bool) : (s.setC v).x = s.x := rfl
@[simp] theorem State.setC_y (s : State) (v : Bool) : (s.setC v).y = s.y := rfl
@[simp] theorem State.setC_sp (s : State) (v : Bool) : (s.setC v).sp = s.sp := rfl
@[simp] theorem State.setC_p (s : State) (v : Bool) : (s.setC v).p = { s.p with c := v } := rfl
@[simp] theorem State.setC_pc (s : State) (v : Bool) : (s.setC v).pc = s.pc := rfl
@[simp] theorem State.setC_nmi (s : State) (v : Bool) : (s.setC v).nmi = s.nmi := rfl
@[simp] theorem State.setC_irq (s : State) (v : Bool) : (s.setC v).irq = s.irq := rfl
@[simp] theorem State.setC_dmaPage (s : State) (v : Bool) : (s.setC v).dmaPage = s.dmaPage := rfl
@[simp] theorem State.setC_dmaPending (s : State) (v : Bool) : (s.setC v).dmaPending = s.dmaPending := rfl
@[simp] theorem State.setC_ppu (s : State) (v : Bool) : (s.setC v).ppu = s.ppu := rfl
@[simp] theorem State.setC_ram (s : State) (v : Bool) : (s.setC v).ram = s.ram := rfl
@[simp] theorem State.setC_faulted (s : State) (v : Bool) : (s.setC v).faulted = s.faulted := rfl
@[simp] theorem State.setC_cart (s : State) (v : Bool) : (s.setC v).cart = s.cart := rfl
@[simp] theorem State.setC_env (s : State) (v : Bool) : (s.setC v).env = s.env := rfl
@[simp] theorem State.setC_draws (s : State) (v : Bool) : (s.setC v).draws = s.draws := rfl
@[simp] theorem State.setC_events (s : State) (v : Bool) : (s.setC v).events = s.events := rfl
@[simp] theorem State.setC_cycles (s : State) (v : Bool) : (s.setC v).cycles = s.cycles := rfl
@[simp] theorem State.setC_stepped (s : State) (v : Bool) : (s.setC v).stepped = s.stepped := rfl

@[simp] theorem Flags.setNZ_v (p : Flags) (v : Byte) : (p.setNZ v).v = p.v := rfl
@[simp] theorem Flags.setNZ_r (p : Flags) (v : Byte) : (p.setNZ v).r = p.r := rfl
@[simp] theorem Flags.setNZ_b (p : Flags) (v : Byte) : (p.setNZ v).b = p.b := rfl
@[simp] theorem Flags.setNZ_d (p : Flags) (v : Byte) : (p.setNZ v).d = p.d := rfl
@[simp] theorem Flags.setNZ_i (p : Flags) (v : Byte) : (p.setNZ v).i = p.i := rfl
@[simp] theorem Flags.setNZ_c (p : Flags) (v : Byte) : (p.setNZ v).c = p.c := rfl
@[simp] theorem Flags.setNZ_n (p : Flags) (v : Byte) : (p.setNZ v).n = v.getLsbD 7 := rfl
@[simp] theorem Flags.setNZ_z (p : Flags) (v : Byte) : (p.setNZ v).z = decide (v = 0) := rfl

end Sys2Proof.Machine
end

