-- ==== Sys2Proof/Laws/Ops.lean ====
section
/-! SUPPORT. What the shared operations can do: one inversion lemma for each, and when each answers. -/

namespace Sys2Proof.Machine

/-! The bus, reading. -/

/-- A port read that answers leaves the state as it is, or resets the status register, or makes a draw. -/
theorem ppuRead_next {p : Port} {a : Addr} {s t : State} {v : Byte} (h : ppuRead p a s = .next (v, t)) :
    t = s ∨ t = s.setPpu s.ppu.afterStatusRead ∨ t = s.drawn := by
  cases p <;> simp only [ppuRead] at h <;> cases h <;> simp

/-- A bus read that answers changes nothing but the status register, the draws and the events. -/
theorem busRead_next {a : Addr} {s t : State} {v : Byte} (h : busRead a s = .next (v, t)) :
    t = s ∨ t = s.setPpu s.ppu.afterStatusRead ∨ t = s.drawn ∨
      t = s.drawn.emit .audioStatusRead ∨ t = s.drawn.emit .inputRead := by
  unfold busRead at h
  split at h
  · cases h; simp
  · have := ppuRead_next h; tauto
  · cases h; simp
  · cases h; simp
  · cases h; simp
  · cases h

/-- A bus read answers exactly at the readable addresses, whatever the state. -/
theorem busRead_readable (a : Addr) (s : State) : readable a = true ↔ ∃ v t, busRead a s = .next (v, t) := by
  unfold readable busRead
  cases h : readTarget a with
  | port p => cases p <;> simp [ppuRead]
  | _ => simp

/-- An address that no read answers at faults. -/
theorem busRead_fault {a : Addr} (s : State) (h : readable a = false) :
    busRead a s = .fault (.unmappedAddress (.read a)) ∨ busRead a s = .fault (.ppuDataReadRefused a) := by
  unfold readable at h
  unfold busRead
  cases ht : readTarget a with
  | port p => cases p <;> simp_all [ppuRead]
  | _ => simp_all

/-- Page zero and the stack page are RAM: a read there gives the cell and changes nothing. -/
theorem busRead_ram {a : Addr} (s : State) (h : a.toNat < 0x2000) :
    busRead a s = .next (s.ram.read (a.toNat % 0x800), s) := by
  simp [busRead, readTarget, h]

/-- A read of program ROM gives the ROM byte and changes nothing. -/
theorem busRead_rom {a : Addr} (s : State) (h : 0x8000 ≤ a.toNat) : busRead a s = .next (s.cart.byte a, s) := by
  have h1 : ¬ a.toNat < 0x2000 := by omega
  have h2 : ¬ a.toNat < 0x4000 := by omega
  have h3 : a.toNat ≠ 0x4015 := by omega
  have h4 : a.toNat ≠ 0x4016 := by omega
  simp [busRead, readTarget, h, h1, h2, h3, h4]

/-- `ReadZP16` is the two bus reads of 20_memory R81: page zero is RAM. -/
theorem readZP16_busRead (z : Byte) (s : State) :
    (Res.andThen (busRead (z.setWidth 16) s) fun r => Res.andThen (busRead ((z + 1).setWidth 16) r.2) fun q =>
      .next (joinBytes q.1 r.1, q.2)) = .next (readZP16 z s, s) := by
  have hz := z.isLt
  have hz1 := (z + 1).isLt
  have e1 : (z.setWidth 16).toNat = z.toNat := by simp; omega
  have e2 : ((z + 1).setWidth 16).toNat = (z + 1).toNat := by rw [BitVec.toNat_setWidth]; omega
  rw [busRead_ram s (by omega), Res.andThen_next, busRead_ram s (by omega), Res.andThen_next, e1, e2,
    Nat.mod_eq_of_lt (by omega), Nat.mod_eq_of_lt (by omega)]
  rfl

/-! The bus, writing. -/

/-- What a port write that answers does, and when. -/
theorem ppuWrite_next {p : Port} {v : Byte} {s t : State} (h : ppuWrite p v s = .next t) :
    (p = .data → invalidPaletteByte s.ppu.vramAddr v = false) ∧
      t = s.setPpu (s.ppu.writePort s.cart.mirroring p v) := by
  unfold ppuWrite at h
  split at h
  · cases h
  · next hn =>
    cases h
    refine ⟨fun hp => ?_, rfl⟩
    by_contra hc
    exact hn ⟨hp, by simpa using hc⟩

/-- A bus write that answers stores one RAM byte, or writes a port, or records a DMA, or emits an event, or does
nothing. -/
theorem busWrite_next {a : Addr} {v : Byte} {s t : State} (h : busWrite a v s = .next t) :
    t = s ∨ t = dmaWrite v s ∨ (∃ e, t = s.emit e) ∨
      (a.toNat < 0x2000 ∧ t = s.setRam (s.ram.write (a.toNat % 0x800) v)) ∨
      (∃ p, 0x2000 ≤ a.toNat ∧ a.toNat < 0x4000 ∧ (p = .data → invalidPaletteByte s.ppu.vramAddr v = false) ∧
        t = s.setPpu (s.ppu.writePort s.cart.mirroring p v)) := by
  unfold busWrite writeTarget at h
  by_cases h1 : a.toNat < 0x2000
  · simp only [h1, if_true] at h; cases h; simp [h1]
  by_cases h2 : a.toNat < 0x4000
  · simp only [h1, h2, if_true, if_false] at h
    have := ppuWrite_next h
    exact .inr (.inr (.inr (.inr ⟨portOf a, by omega, h2, this⟩)))
  simp only [h1, h2, if_false] at h
  split_ifs at h <;> cases h <;> simp

/-- A bus write answers exactly where it is writable. -/
theorem busWrite_writable (a : Addr) (v : Byte) (s : State) : writable a v s = true ↔ ∃ t, busWrite a v s = .next t := by
  unfold writable busWrite
  cases h : writeTarget a with
  | port p =>
    cases hb : invalidPaletteByte s.ppu.vramAddr v <;> cases p <;> simp [ppuWrite, hb]
  | _ => simp

/-- A store that does not answer has one of the bus's two faults of a write (60_exceptions R322, R323). -/
theorem busWrite_fault {a : Addr} {v : Byte} {s : State} (h : writable a v s = false) :
    busWrite a v s = .fault (.unmappedAddress (.write a v)) ∨
      busWrite a v s = .fault (.invalidPaletteWrite s.ppu.vramAddr v) := by
  unfold writable at h
  unfold busWrite
  cases hr : writeTarget a with
  | port p => rw [hr] at h; cases p <;> simp_all [ppuWrite]
  | _ => simp_all

/-- Where a read answers, a write of any byte answers, in any state: a read-modify-write faults on its read only. -/
theorem writable_of_readable {a : Addr} (h : readable a = true) (v : Byte) (s : State) : writable a v s = true := by
  unfold readable readTarget at h
  unfold writable writeTarget
  by_cases h1 : a.toNat < 0x2000
  · simp [h1]
  by_cases h2 : a.toNat < 0x4000
  · simp only [h1, h2, if_true, if_false] at h ⊢
    generalize portOf a = p at h ⊢
    cases p <;> simp_all
  simp only [h1, h2, if_false] at h ⊢
  split_ifs at h ⊢ <;> first | rfl | omega

/-- A read that answers leaves every address readable or not as it was, and every write too. -/
theorem busRead_kept {a : Addr} {s t : State} {v : Byte} (h : busRead a s = .next (v, t)) :
    t.a = s.a ∧ t.x = s.x ∧ t.y = s.y ∧ t.sp = s.sp ∧ t.p = s.p ∧ t.pc = s.pc ∧ t.nmi = s.nmi ∧ t.irq = s.irq ∧
      t.dmaPage = s.dmaPage ∧ t.dmaPending = s.dmaPending ∧ t.ram = s.ram ∧ t.faulted = s.faulted ∧
      t.cart = s.cart ∧ t.env = s.env ∧ t.cycles = s.cycles := by
  rcases busRead_next h with rfl | rfl | rfl | rfl | rfl <;> simp

/-- A write that answers leaves the registers, the flags, the interrupt flags, the cartridge and the draws alone. -/
theorem busWrite_kept {a : Addr} {v : Byte} {s t : State} (h : busWrite a v s = .next t) :
    t.a = s.a ∧ t.x = s.x ∧ t.y = s.y ∧ t.sp = s.sp ∧ t.p = s.p ∧ t.pc = s.pc ∧ t.nmi = s.nmi ∧ t.irq = s.irq ∧
      t.faulted = s.faulted ∧ t.cart = s.cart ∧ t.env = s.env ∧ t.draws = s.draws ∧ t.cycles = s.cycles := by
  rcases busWrite_next h with rfl | rfl | ⟨e, rfl⟩ | ⟨_, rfl⟩ | ⟨p, _, _, _, rfl⟩ <;> simp [dmaWrite]

/-! Operands. -/

/-- An operand read that answers is immediate, or a bus read of the effective address. -/
theorem readOperand_next {o : Operand} {s t : State} {v : Byte} (h : readOperand o s = .next (v, t)) :
    (o = .imm v ∧ t = s) ∨ ∃ m, o = .mem m ∧ busRead (effAddr m s) s = .next (v, t) := by
  cases o with
  | imm w => simp only [readOperand] at h; cases h; simp
  | mem m => exact .inr ⟨m, rfl, h⟩

/-- A reading operand answers exactly where it is readable. -/
theorem readOperand_readable (o : Operand) (s : State) :
    operandReadable o s = true ↔ ∃ v t, readOperand o s = .next (v, t) := by
  cases o with
  | imm w => simp [operandReadable, readOperand]
  | mem m => exact busRead_readable _ s

/-- A read-modify-write that answers is one read of the effective address, then one write of the result there. -/
theorem modifyMem_next {α : Type} {m : AddrMode} {f : Byte → α} {out : α → Byte} {s t : State} {r : α}
    (h : modifyMem m f out s = .next (r, t)) :
    ∃ v s1, busRead (effAddr m s) s = .next (v, s1) ∧ r = f v ∧ busWrite (effAddr m s) (out (f v)) s1 = .next t := by
  obtain ⟨⟨v, s1⟩, h1, h2⟩ := Res.andThen_eq_next.1 h
  obtain ⟨t', h3, h4⟩ := Res.andThen_eq_next.1 h2
  cases h4
  exact ⟨v, s1, h1, rfl, h3⟩

/-- A read-modify-write answers wherever its effective address is readable. -/
theorem modifyMem_readable {α : Type} {m : AddrMode} (f : Byte → α) (out : α → Byte) {s : State}
    (h : readable (effAddr m s) = true) : ∃ r t, modifyMem m f out s = .next (r, t) := by
  obtain ⟨v, s1, h1⟩ := (busRead_readable _ s).1 h
  obtain ⟨t, h2⟩ := (busWrite_writable _ (out (f v)) s1).1 (writable_of_readable h _ s1)
  exact ⟨f v, t, by simp [modifyMem, readMem, h1, h2]⟩

/-! The stack and taking an interrupt. -/

/-- A push writes one cell of the stack page and lowers the pointer; nothing else changes. -/
theorem push_eq (v : Byte) (s : State) :
    push v s = { s with ram := s.ram.write (0x100 + s.sp.toNat) v, sp := s.sp - 1 } := rfl

/-- What taking an interrupt does to every piece of state (60_exceptions R331, 44_control_flow R195). -/
theorem takeInterrupt_eq (brk : Bool) (ret vector : Addr) (s : State) :
    takeInterrupt brk ret vector s =
      { s with
        ram := ((s.ram.write (0x100 + s.sp.toNat) (hiByte ret)).write (0x100 + (s.sp - 1).toNat) (loByte ret)).write
          (0x100 + (s.sp - 1 - 1).toNat) (Flags.toByte { s.p with b := brk })
        sp := s.sp - 1 - 1 - 1
        p := { s.p with b := brk, i := true }
        pc := s.cart.vector vector } := by
  simp only [takeInterrupt, pushWord, push, stackCell, State.setRam, State.setSp, State.setP, State.setPc]

/-- What returning from an interrupt does to every piece of state (44_control_flow R194). -/
theorem returnFromInterrupt_eq (s : State) :
    returnFromInterrupt s =
      { s with
        sp := s.sp + 1 + 1 + 1
        p := s.p.pulled (s.ram.read (0x100 + (s.sp + 1).toNat))
        pc := joinBytes (s.ram.read (0x100 + (s.sp + 1 + 1 + 1).toNat)) (s.ram.read (0x100 + (s.sp + 1 + 1).toNat)) } := by
  simp only [returnFromInterrupt, pulled, pullByte, stackCell, State.setSp, State.setP, State.setPc]

/-- The interrupt poll takes the NMI, or the IRQ, or nothing (60_exceptions R330, R334). -/
theorem pollInterrupts_cases (s : State) :
    (s.nmi = true ∧ pollInterrupts s = serviceNmi s) ∨
      (s.nmi = false ∧ s.irq = true ∧ s.p.i = false ∧ pollInterrupts s = serviceIrq s) ∨
      (s.nmi = false ∧ (s.irq = false ∨ s.p.i = true) ∧ pollInterrupts s = s) := by
  cases hn : s.nmi
  · cases hi : s.irq <;> cases hp : s.p.i <;> simp [pollInterrupts, hn, hi, hp]
  · have : (serviceNmi s).p.i = true := rfl
    simp [pollInterrupts, hn, this]

/-- A byte fetch that answers is a bus read at the pc, which then advances by one. -/
theorem fetchByte_next {s t : State} {v : Byte} (h : fetchByte s = .next (v, t)) :
    ∃ s1, busRead s.pc s = .next (v, s1) ∧ t = s1.setPc (s1.pc + 1) := by
  obtain ⟨⟨w, s1⟩, h1, h2⟩ := Res.andThen_eq_next.1 h
  cases h2
  exact ⟨s1, h1, rfl⟩

end Sys2Proof.Machine
end

