-- ==== Sys2Proof/Laws/PerInstr.lean ====
section
/-! SUPPORT. The per-instruction family EncodeLength: the encoding of a well-formed instruction has the length the
opcode table gives its first byte (30_encoding R100, R123). -/

namespace Sys2Proof.Laws.EncodeLength

/-- The encoding of a well-formed instruction is one opcode byte and the operand bytes its table row has. -/
def Statement (i : Instr) : Prop :=
  i.wellFormed = true → (encode i).length = operandCount ((encode i).headD 0) + 1

/-- A term without a row meets the statement. -/
theorem of_illFormed {i : Instr} (h : i.wellFormed = false) : Statement i :=
  fun hw => by rw [h] at hw; cases hw

/-- An instruction whose opcode byte has as many operand bytes as its encoding writes meets the statement. -/
theorem of_opcode {i : Instr} {n : Nat} (op : Byte) (ho : i.opcode = some op) (hb : i.operandBytes.length = n)
    (hn : operandCount op = n) : Statement i := by
  intro _
  simp [encode, ho, hb, hn]

theorem lda (o : Operand) : Statement (.lda o) := by
  cases o with
  | imm v => exact of_opcode _ rfl rfl rfl
  | mem m => cases m <;> first | exact of_opcode _ rfl rfl rfl | exact of_illFormed rfl
theorem ldx (o : Operand) : Statement (.ldx o) := by
  cases o with
  | imm v => exact of_opcode _ rfl rfl rfl
  | mem m => cases m <;> first | exact of_opcode _ rfl rfl rfl | exact of_illFormed rfl
theorem ldy (o : Operand) : Statement (.ldy o) := by
  cases o with
  | imm v => exact of_opcode _ rfl rfl rfl
  | mem m => cases m <;> first | exact of_opcode _ rfl rfl rfl | exact of_illFormed rfl
theorem sta (m : AddrMode) : Statement (.sta m) := by
  cases m <;> first | exact of_opcode _ rfl rfl rfl | exact of_illFormed rfl
theorem stx (m : AddrMode) : Statement (.stx m) := by
  cases m <;> first | exact of_opcode _ rfl rfl rfl | exact of_illFormed rfl
theorem sty (m : AddrMode) : Statement (.sty m) := by
  cases m <;> first | exact of_opcode _ rfl rfl rfl | exact of_illFormed rfl
theorem tax : Statement (.tax) := of_opcode _ rfl rfl rfl
theorem tay : Statement (.tay) := of_opcode _ rfl rfl rfl
theorem txa : Statement (.txa) := of_opcode _ rfl rfl rfl
theorem tya : Statement (.tya) := of_opcode _ rfl rfl rfl
theorem tsx : Statement (.tsx) := of_opcode _ rfl rfl rfl
theorem txs : Statement (.txs) := of_opcode _ rfl rfl rfl
theorem pha : Statement (.pha) := of_opcode _ rfl rfl rfl
theorem php : Statement (.php) := of_opcode _ rfl rfl rfl
theorem pla : Statement (.pla) := of_opcode _ rfl rfl rfl
theorem plp : Statement (.plp) := of_opcode _ rfl rfl rfl
theorem adc (o : Operand) : Statement (.adc o) := by
  cases o with
  | imm v => exact of_opcode _ rfl rfl rfl
  | mem m => cases m <;> first | exact of_opcode _ rfl rfl rfl | exact of_illFormed rfl
theorem sbc (o : Operand) : Statement (.sbc o) := by
  cases o with
  | imm v => exact of_opcode _ rfl rfl rfl
  | mem m => cases m <;> first | exact of_opcode _ rfl rfl rfl | exact of_illFormed rfl
theorem and (o : Operand) : Statement (.and o) := by
  cases o with
  | imm v => exact of_opcode _ rfl rfl rfl
  | mem m => cases m <;> first | exact of_opcode _ rfl rfl rfl | exact of_illFormed rfl
theorem ora (o : Operand) : Statement (.ora o) := by
  cases o with
  | imm v => exact of_opcode _ rfl rfl rfl
  | mem m => cases m <;> first | exact of_opcode _ rfl rfl rfl | exact of_illFormed rfl
theorem eor (o : Operand) : Statement (.eor o) := by
  cases o with
  | imm v => exact of_opcode _ rfl rfl rfl
  | mem m => cases m <;> first | exact of_opcode _ rfl rfl rfl | exact of_illFormed rfl
theorem bit (m : AddrMode) : Statement (.bit m) := by
  cases m <;> first | exact of_opcode _ rfl rfl rfl | exact of_illFormed rfl
theorem cmp (o : Operand) : Statement (.cmp o) := by
  cases o with
  | imm v => exact of_opcode _ rfl rfl rfl
  | mem m => cases m <;> first | exact of_opcode _ rfl rfl rfl | exact of_illFormed rfl
theorem cpx (o : Operand) : Statement (.cpx o) := by
  cases o with
  | imm v => exact of_opcode _ rfl rfl rfl
  | mem m => cases m <;> first | exact of_opcode _ rfl rfl rfl | exact of_illFormed rfl
theorem cpy (o : Operand) : Statement (.cpy o) := by
  cases o with
  | imm v => exact of_opcode _ rfl rfl rfl
  | mem m => cases m <;> first | exact of_opcode _ rfl rfl rfl | exact of_illFormed rfl
theorem inc (m : AddrMode) : Statement (.inc m) := by
  cases m <;> first | exact of_opcode _ rfl rfl rfl | exact of_illFormed rfl
theorem dec (m : AddrMode) : Statement (.dec m) := by
  cases m <;> first | exact of_opcode _ rfl rfl rfl | exact of_illFormed rfl
theorem inx : Statement (.inx) := of_opcode _ rfl rfl rfl
theorem iny : Statement (.iny) := of_opcode _ rfl rfl rfl
theorem dex : Statement (.dex) := of_opcode _ rfl rfl rfl
theorem dey : Statement (.dey) := of_opcode _ rfl rfl rfl
theorem asl (o : ShiftOperand) : Statement (.asl o) := by
  cases o with
  | acc => exact of_opcode _ rfl rfl rfl
  | mem m => cases m <;> first | exact of_opcode _ rfl rfl rfl | exact of_illFormed rfl
theorem lsr (o : ShiftOperand) : Statement (.lsr o) := by
  cases o with
  | acc => exact of_opcode _ rfl rfl rfl
  | mem m => cases m <;> first | exact of_opcode _ rfl rfl rfl | exact of_illFormed rfl
theorem rol (o : ShiftOperand) : Statement (.rol o) := by
  cases o with
  | acc => exact of_opcode _ rfl rfl rfl
  | mem m => cases m <;> first | exact of_opcode _ rfl rfl rfl | exact of_illFormed rfl
theorem ror (o : ShiftOperand) : Statement (.ror o) := by
  cases o with
  | acc => exact of_opcode _ rfl rfl rfl
  | mem m => cases m <;> first | exact of_opcode _ rfl rfl rfl | exact of_illFormed rfl
theorem jmp (t : JumpOperand) : Statement (.jmp t) := by cases t <;> exact of_opcode _ rfl rfl rfl
theorem jsr (w : Addr) : Statement (.jsr w) := of_opcode _ rfl rfl rfl
theorem rts : Statement (.rts) := of_opcode _ rfl rfl rfl
theorem rti : Statement (.rti) := of_opcode _ rfl rfl rfl
theorem brk : Statement (.brk) := of_opcode _ rfl rfl rfl
theorem bcc (d : Byte) : Statement (.bcc d) := of_opcode _ rfl rfl rfl
theorem bcs (d : Byte) : Statement (.bcs d) := of_opcode _ rfl rfl rfl
theorem beq (d : Byte) : Statement (.beq d) := of_opcode _ rfl rfl rfl
theorem bne (d : Byte) : Statement (.bne d) := of_opcode _ rfl rfl rfl
theorem bmi (d : Byte) : Statement (.bmi d) := of_opcode _ rfl rfl rfl
theorem bpl (d : Byte) : Statement (.bpl d) := of_opcode _ rfl rfl rfl
theorem bvc (d : Byte) : Statement (.bvc d) := of_opcode _ rfl rfl rfl
theorem bvs (d : Byte) : Statement (.bvs d) := of_opcode _ rfl rfl rfl
theorem clc : Statement (.clc) := of_opcode _ rfl rfl rfl
theorem sec : Statement (.sec) := of_opcode _ rfl rfl rfl
theorem cli : Statement (.cli) := of_opcode _ rfl rfl rfl
theorem sei : Statement (.sei) := of_opcode _ rfl rfl rfl
theorem cld : Statement (.cld) := of_opcode _ rfl rfl rfl
theorem sed : Statement (.sed) := of_opcode _ rfl rfl rfl
theorem clv : Statement (.clv) := of_opcode _ rfl rfl rfl
theorem nop : Statement (.nop) := of_opcode _ rfl rfl rfl
theorem nopU (op : Byte) (o : NopOperand) : Statement (.nopU op o) := by
  cases o with
  | implied =>
    intro hw
    have h := hw
    simp [Instr.wellFormed, NopOperand.mode, nopOpcodes] at h
    rcases h with rfl | rfl | rfl | rfl | rfl | rfl <;> exact of_opcode _ rfl rfl rfl hw
  | imm v =>
    intro hw
    have h := hw
    simp [Instr.wellFormed, NopOperand.mode, nopOpcodes] at h
    rcases h with rfl | rfl | rfl | rfl | rfl <;> exact of_opcode _ rfl rfl rfl hw
  | mem m =>
    cases m <;> intro hw <;> have h := hw <;> simp [Instr.wellFormed, NopOperand.mode, AddrMode.mode, nopOpcodes] at h
    · rcases h with rfl | rfl | rfl <;> exact of_opcode _ rfl rfl rfl hw
    · rcases h with rfl | rfl | rfl | rfl | rfl | rfl <;> exact of_opcode _ rfl rfl rfl hw
    · subst h; exact of_opcode _ rfl rfl rfl hw
    · rcases h with rfl | rfl | rfl | rfl | rfl | rfl <;> exact of_opcode _ rfl rfl rfl hw
theorem lax (m : AddrMode) : Statement (.lax m) := by
  cases m <;> first | exact of_opcode _ rfl rfl rfl | exact of_illFormed rfl
theorem sax (m : AddrMode) : Statement (.sax m) := by
  cases m <;> first | exact of_opcode _ rfl rfl rfl | exact of_illFormed rfl
theorem sbcU (v : Byte) : Statement (.sbcU v) := of_opcode _ rfl rfl rfl
theorem dcp (m : AddrMode) : Statement (.dcp m) := by
  cases m <;> first | exact of_opcode _ rfl rfl rfl | exact of_illFormed rfl
theorem isb (m : AddrMode) : Statement (.isb m) := by
  cases m <;> first | exact of_opcode _ rfl rfl rfl | exact of_illFormed rfl
theorem slo (m : AddrMode) : Statement (.slo m) := by
  cases m <;> first | exact of_opcode _ rfl rfl rfl | exact of_illFormed rfl
theorem rla (m : AddrMode) : Statement (.rla m) := by
  cases m <;> first | exact of_opcode _ rfl rfl rfl | exact of_illFormed rfl
theorem sre (m : AddrMode) : Statement (.sre m) := by
  cases m <;> first | exact of_opcode _ rfl rfl rfl | exact of_illFormed rfl
theorem rra (m : AddrMode) : Statement (.rra m) := by
  cases m <;> first | exact of_opcode _ rfl rfl rfl | exact of_illFormed rfl
theorem illegal (op : Byte) : Statement (.illegal op) := by
  intro hw
  have h : op ∈ illegalOpcodes := by simpa [Instr.wellFormed] using hw
  fin_cases h <;> exact of_opcode _ rfl rfl rfl hw

end Sys2Proof.Laws.EncodeLength
end

