-- ==== Sys2Proof/Laws/Render.lean ====
section
/-! SUPPORT. What `PPU.run` can do: what it keeps, one scanline advance, and the induction over the run loop. -/

namespace Sys2Proof.Machine

/-- `t` is `s` but for the NMI flag, the draws, the events and, in the PPU, the counters, the status register and the
render lists. -/
def RenderKeeps (s t : State) : Prop :=
  t = { s with
    nmi := t.nmi, draws := t.draws, events := t.events
    ppu := { s.ppu with
      cycle := t.ppu.cycle, scanline := t.ppu.scanline, status := t.ppu.status, background := t.ppu.background
      sprites := t.ppu.sprites } }

theorem RenderKeeps.refl (s : State) : RenderKeeps s s := rfl

theorem RenderKeeps.trans {s t u : State} (h1 : RenderKeeps s t) (h2 : RenderKeeps t u) : RenderKeeps s u := by
  unfold RenderKeeps at *
  rw [h1] at h2
  exact h2

/-- The sprite-0 step changes the status register's bit 6 and the draws at most. -/
theorem sprite0HitStep_cases (s : State) : sprite0HitStep s = s ∨
    (1 ≤ s.ppu.scanline ∧ s.ppu.scanline ≤ 240 ∧
      sprite0HitStep s = (s.setPpu (s.ppu.withHit (hitBit s.draws))).drawn) := by
  unfold sprite0HitStep
  cases s.env.sprite0Hit
  · exact .inl rfl
  · dsimp only
    split
    · next h => exact .inr ⟨h.1, h.2, rfl⟩
    · exact .inl rfl

/-- The row step appends a row, where one is due, and changes nothing else. -/
theorem rowStep_cases (s : State) : (s.ppu.rowDue = false ∧ rowStep s = s) ∨
    (s.ppu.rowDue = true ∧ rowStep s = s.setPpu (s.ppu.buildRow s.cart.mirroring s.ppu.scanline)) := by
  unfold rowStep
  cases s.ppu.rowDue <;> simp

/-- The boundary step starts vblank, or wraps the frame, or does nothing. -/
theorem boundaryStep_cases (s : State) :
    (s.ppu.scanline = 241 ∧ boundaryStep s = vblankStart s) ∨
    (s.ppu.scanline = 262 ∧ boundaryStep s = frameWrap s) ∨
    (s.ppu.scanline ≠ 241 ∧ s.ppu.scanline ≠ 262 ∧ boundaryStep s = s) := by
  unfold boundaryStep
  by_cases h1 : s.ppu.scanline = 241
  · simp [h1]
  · by_cases h2 : s.ppu.scanline = 262 <;> simp [h1, h2]

theorem sprite0HitStep_keeps (s : State) : RenderKeeps s (sprite0HitStep s) := by
  rcases sprite0HitStep_cases s with h | ⟨_, _, h⟩ <;> rw [h] <;> rfl

theorem rowStep_keeps (s : State) : RenderKeeps s (rowStep s) := by
  rcases rowStep_cases s with ⟨_, h⟩ | ⟨_, h⟩ <;> rw [h] <;> rfl

theorem boundaryStep_keeps (s : State) : RenderKeeps s (boundaryStep s) := by
  rcases boundaryStep_cases s with ⟨_, h⟩ | ⟨_, h⟩ | ⟨_, _, h⟩ <;> rw [h]
  · unfold vblankStart
    cases s.ppu.ctrl.getLsbD 7 <;> rfl
  · rfl
  · rfl

/-- A scanline advance changes nothing but the NMI flag, the draws, the events and, in the PPU, the counters, the status
register and the render lists (48_ppu_rendering R271, R272). -/
theorem scanlineAdvance_keeps (s : State) : RenderKeeps s (scanlineAdvance s) := by
  have h : RenderKeeps s (s.setPpu s.ppu.nextScanline) := by simp only [RenderKeeps, State.setPpu, Ppu.nextScanline]
  unfold scanlineAdvance scanlineEvents
  refine h.trans ?_
  generalize s.setPpu s.ppu.nextScanline = u
  exact ((sprite0HitStep_keeps u).trans (rowStep_keeps _)).trans (boundaryStep_keeps _)

/-- The counters after the first two steps of `ScanlineEvents()`. -/
theorem rowStep_sprite0HitStep_counters (s : State) :
    (rowStep (sprite0HitStep s)).ppu.cycle = s.ppu.cycle ∧ (rowStep (sprite0HitStep s)).ppu.scanline = s.ppu.scanline := by
  rcases rowStep_cases (sprite0HitStep s) with ⟨_, h⟩ | ⟨_, h⟩ <;> rw [h] <;>
    rcases sprite0HitStep_cases s with h | ⟨_, _, h⟩ <;> rw [h] <;> exact ⟨rfl, rfl⟩

theorem vblankStart_counters (s : State) :
    (vblankStart s).ppu.cycle = s.ppu.cycle ∧ (vblankStart s).ppu.scanline = s.ppu.scanline := by
  unfold vblankStart
  cases s.ppu.ctrl.getLsbD 7 <;> exact ⟨rfl, rfl⟩

/-- A scanline advance subtracts 341 dots and moves to the next of the 262 scanlines. -/
theorem scanlineAdvance_counters (s : State) : (scanlineAdvance s).ppu.cycle = s.ppu.cycle - 341 ∧
    (scanlineAdvance s).ppu.scanline = if s.ppu.scanline = 261 then 0 else s.ppu.scanline + 1 := by
  unfold scanlineAdvance scanlineEvents
  obtain ⟨hc, hs⟩ := rowStep_sprite0HitStep_counters (s.setPpu s.ppu.nextScanline)
  generalize rowStep (sprite0HitStep (s.setPpu s.ppu.nextScanline)) = u at hc hs ⊢
  have hc' : u.ppu.cycle = s.ppu.cycle - 341 := hc
  have hs' : u.ppu.scanline = s.ppu.scanline + 1 := hs
  rcases boundaryStep_cases u with ⟨h, e⟩ | ⟨h, e⟩ | ⟨h1, h2, e⟩ <;> rw [e]
  · rw [(vblankStart_counters u).1, (vblankStart_counters u).2, if_neg (by omega)]
    exact ⟨hc', hs'⟩
  · rw [if_pos (by omega)]
    exact ⟨hc', rfl⟩
  · rw [if_neg (by omega)]
    exact ⟨hc', hs'⟩

/-- The run loop keeps what every scanline advance keeps. -/
theorem ppuLoop_induct {P : State → Prop} (h : ∀ s, 341 ≤ s.ppu.cycle → P s → P (scanlineAdvance s)) :
    ∀ (fuel : Nat) (s : State), P s → P (ppuLoop fuel s)
  | 0, _, hs => hs
  | fuel + 1, s, hs => by
    unfold ppuLoop
    split
    · next hc => exact ppuLoop_induct h fuel _ (h s hc hs)
    · exact hs

/-- `PPU.run` changes nothing but the PPU's counters, status register and render lists, the NMI flag, the draws and the
events. -/
theorem ppuRun_keeps (n : Nat) (s : State) : RenderKeeps s (ppuRun n s) :=
  ppuLoop_induct (P := RenderKeeps s) (fun t _ h => h.trans (scanlineAdvance_keeps t)) _ _ rfl

/-- Enough fuel runs the loop to its end. -/
theorem ppuLoop_cycle : ∀ (fuel : Nat) (s : State), s.ppu.cycle < 341 * (fuel + 1) → (ppuLoop fuel s).ppu.cycle < 341
  | 0, s, h => by simpa [ppuLoop] using h
  | fuel + 1, s, h => by
    unfold ppuLoop
    split
    · refine ppuLoop_cycle fuel _ ?_
      rw [(scanlineAdvance_counters s).1]
      omega
    · next hc => simpa [Config.dotsPerScanline] using hc

/-- After `PPU.run` the dot is inside the scanline, whatever it was before (48_ppu_rendering R271, R273). -/
theorem ppuRun_cycle (n : Nat) (s : State) : (ppuRun n s).ppu.cycle < 341 := by
  refine ppuLoop_cycle _ _ ?_
  show s.ppu.cycle + n < 341 * ((s.ppu.cycle + n) / 341 + 1)
  omega

end Sys2Proof.Machine
end

