-- ==== Sys2Proof/Laws/Step.lean ====
section
/-! SUPPORT. What a step can do, said once: its parts, and the induction over every elementary update that the CPU's part of
a step is made of. -/

namespace Sys2Proof.Machine

/-- A step that answers is its four parts, each answering (49_dma_sequencer R306). -/
theorem step_next {s t : State} : step s = .next t ↔
    ∃ s1 i s2 u, beginStep s = .next s1 ∧ fetchInstr s1 = .next (i, s2) ∧ exec i s2 = .next u ∧ t = endStep i s2 u := by
  unfold step
  rw [Res.andThen_eq_next]
  constructor
  · rintro ⟨s1, h1, h⟩
    obtain ⟨⟨i, s2⟩, h2, h⟩ := Res.andThen_eq_next.1 h
    obtain ⟨u, h3, h⟩ := Res.andThen_eq_next.1 h
    cases h
    exact ⟨s1, i, s2, u, h1, h2, h3, rfl⟩
  · rintro ⟨s1, i, s2, u, h1, h2, h3, rfl⟩
    exact ⟨s1, h1, Res.andThen_eq_next.2 ⟨(i, s2), h2, Res.andThen_eq_next.2 ⟨u, h3, rfl⟩⟩⟩

/-- The environment's move: the IRQ flag and the counter of draws, and nothing else (60_exceptions R327). -/
theorem environmentMove_eq (s : State) : environmentMove s = { s with
    irq := (environmentMove s).irq, draws := (environmentMove s).draws } := by
  unfold environmentMove
  split <;> rfl

/-- A property that every elementary update of the CPU's part of a step keeps: register writes, flag writes that keep the
reserved flag or set it, RAM writes, draws, events but frames, port accesses, the interrupt flags, the DMA unit. -/
structure CpuClosed (P : State → Prop) : Prop where
  a : ∀ s v, P s → P (s.setA v)
  x : ∀ s v, P s → P (s.setX v)
  y : ∀ s v, P s → P (s.setY v)
  sp : ∀ s v, P s → P (s.setSp v)
  pc : ∀ s v, P s → P (s.setPc v)
  p : ∀ s (p : Flags), p.r = s.p.r ∨ p.r = true → P s → P (s.setP p)
  ram : ∀ s j v, j < 0x800 → P s → P (s.setRam (s.ram.write j v))
  drawn : ∀ s, P s → P s.drawn
  emit : ∀ s e, e.isFrame = false → P s → P (s.emit e)
  statusRead : ∀ s, P s → P (s.setPpu s.ppu.afterStatusRead)
  portWrite : ∀ s p v, (p = .data → invalidPaletteByte s.ppu.vramAddr v = false) → P s →
    P (s.setPpu (s.ppu.writePort s.cart.mirroring p v))
  dmaWrite : ∀ s v, P s → P (dmaWrite v s)
  dmaCopy : ∀ s, P s →
    P ((s.setPpu (s.ppu.transferFrom 0 (pageBytes s.ram s.dmaPage))).setDmaPending false)
  nmi : ∀ s, P s → P (s.setNmi false)
  irq : ∀ s, P s → P (s.setIrq false)
  cycles : ∀ s v, P s → P (s.setCycles v)
  stepped : ∀ s, P s → P (s.setStepped true)

namespace CpuClosed

variable {P : State → Prop} (c : CpuClosed P)
include c

theorem busRead {a : Addr} {s t : State} {v : Byte} (h : Machine.busRead a s = .next (v, t)) (hs : P s) : P t := by
  rcases busRead_next h with rfl | rfl | rfl | rfl | rfl
  · exact hs
  · exact c.statusRead s hs
  · exact c.drawn s hs
  · exact c.emit _ _ rfl (c.drawn s hs)
  · exact c.emit _ _ rfl (c.drawn s hs)

theorem busWrite {a : Addr} {v : Byte} {s t : State} (h : Machine.busWrite a v s = .next t) (hs : P s) : P t := by
  unfold Machine.busWrite writeTarget at h
  split_ifs at h
  · cases h; exact c.ram s _ v (by omega) hs
  · obtain ⟨h1, rfl⟩ := ppuWrite_next h; exact c.portWrite s _ v h1 hs
  · cases h; exact c.dmaWrite s v hs
  · cases h; exact c.emit s _ rfl hs
  · cases h; exact c.emit s _ rfl hs
  · cases h; exact hs

theorem readOperand {o : Operand} {s t : State} {v : Byte} (h : Machine.readOperand o s = .next (v, t)) (hs : P s) :
    P t := by
  rcases readOperand_next h with ⟨_, rfl⟩ | ⟨m, _, h⟩
  · exact hs
  · exact c.busRead h hs

theorem modifyMem {α : Type} {m : AddrMode} {f : Byte → α} {out : α → Byte} {s t : State} {r : α}
    (h : Machine.modifyMem m f out s = .next (r, t)) (hs : P s) : P t := by
  obtain ⟨_, _, h1, _, h2⟩ := modifyMem_next h
  exact c.busWrite h2 (c.busRead h1 hs)

theorem push (v : Byte) {s : State} (hs : P s) : P (Machine.push v s) :=
  c.sp _ _ (c.ram _ _ _ (by have := s.sp.isLt; unfold stackCell; omega) hs)

theorem pushWord (w : Addr) {s : State} (hs : P s) : P (Machine.pushWord w s) := c.push _ (c.push _ hs)

theorem pulled {s : State} (hs : P s) : P (Machine.pulled s) := c.sp _ _ hs

theorem setNZ {s : State} (v : Byte) (hs : P s) : P (s.setNZ v) := c.p _ _ (.inl rfl) hs

theorem setC {s : State} (v : Bool) (hs : P s) : P (s.setC v) := c.p _ _ (.inl rfl) hs

theorem addWithCarry {s : State} (v : Byte) (hs : P s) : P (s.addWithCarry v) :=
  c.setNZ _ (c.a _ _ (c.p _ _ (.inl rfl) hs))

theorem compare {s : State} (r v : Byte) (hs : P s) : P (s.compare r v) := c.setNZ _ (c.setC _ hs)

theorem setResultA {s : State} (v : Byte) (hs : P s) : P (s.setResultA v) := c.setNZ _ (c.a _ _ hs)

theorem setShiftFlags {s : State} (f : Shifted) (hs : P s) : P (s.setShiftFlags f) := c.setNZ _ (c.setC _ hs)

theorem setCarryThenA {s : State} (b : Bool) (v : Byte) (hs : P s) : P (s.setCarryThenA b v) :=
  c.setNZ _ (c.a _ _ (c.setC _ hs))

theorem takeInterrupt (brk : Bool) (ret v : Addr) {s : State} (hs : P s) : P (Machine.takeInterrupt brk ret v s) :=
  c.pc _ _ (c.p _ _ (.inl rfl) (c.push _ (c.pushWord _ (c.p _ _ (.inl rfl) hs))))

theorem pollInterrupts {s : State} (hs : P s) : P (Machine.pollInterrupts s) := by
  rcases pollInterrupts_cases s with ⟨_, h⟩ | ⟨_, _, _, h⟩ | ⟨_, _, h⟩ <;> rw [h]
  · exact c.nmi _ (c.takeInterrupt _ _ _ hs)
  · exact c.irq _ (c.takeInterrupt _ _ _ hs)
  · exact hs

theorem beginStep {s t : State} (h : Machine.beginStep s = .next t) (he : P (environmentMove s)) : P t := by
  unfold Machine.beginStep at h
  split at h
  · cases h
  · obtain ⟨u, h1, h2⟩ := Res.andThen_eq_next.1 h
    cases h2
    refine c.pollInterrupts ?_
    unfold dmaStep at h1
    split at h1
    · obtain ⟨w, h3, h4⟩ := Res.andThen_eq_next.1 h1
      cases h4
      unfold dmaRun at h3
      split at h3
      · cases h3
      · cases h3; exact c.cycles _ _ (c.dmaCopy _ he)
    · cases h1; exact c.cycles _ _ he

theorem fetchByte {s t : State} {v : Byte} (h : Machine.fetchByte s = .next (v, t)) (hs : P s) : P t := by
  obtain ⟨u, h1, rfl⟩ := fetchByte_next h
  exact c.pc _ _ (c.busRead h1 hs)

theorem fetchInstr {s t : State} {i : Instr} (h : Machine.fetchInstr s = .next (i, t)) (hs : P s) : P t := by
  obtain ⟨⟨op, u⟩, h1, h2⟩ := Res.andThen_eq_next.1 h
  obtain ⟨⟨bs, w⟩, h3, h4⟩ := Res.andThen_eq_next.1 h2
  cases h4
  have hu := c.fetchByte h1 hs
  unfold fetchOperands at h3
  split at h3
  · cases h3; exact hu
  · obtain ⟨⟨b, q⟩, h5, h6⟩ := Res.andThen_eq_next.1 h3
    cases h6
    exact c.fetchByte h5 hu
  · obtain ⟨⟨b, q⟩, h5, h6⟩ := Res.andThen_eq_next.1 h3
    obtain ⟨⟨b', q'⟩, h7, h8⟩ := Res.andThen_eq_next.1 h6
    cases h8
    exact c.fetchByte h7 (c.fetchByte h5 hu)

/-- A reading instruction keeps what its update of the state after the read keeps. -/
theorem reading {o : Operand} {f : Byte × State → State} (hf : ∀ r : Byte × State, P r.2 → P (f r)) {s t : State}
    (h : Res.andThen (Machine.readOperand o s) (fun r => .next (f r)) = .next t) (hs : P s) : P t := by
  obtain ⟨⟨v, u⟩, h1, h2⟩ := Res.andThen_eq_next.1 h
  cases h2
  exact hf _ (c.readOperand h1 hs)

/-- A read-modify-write keeps what its update of the state after the write keeps. -/
theorem modifying {α : Type} {m : AddrMode} {g : Byte → α} {out : α → Byte} {f : α × State → State}
    (hf : ∀ r : α × State, P r.2 → P (f r)) {s t : State}
    (h : Res.andThen (Machine.modifyMem m g out s) (fun r => .next (f r)) = .next t) (hs : P s) : P t := by
  obtain ⟨⟨v, u⟩, h1, h2⟩ := Res.andThen_eq_next.1 h
  cases h2
  exact hf _ (c.modifyMem h1 hs)

theorem shifting {f : Byte → Shifted} {o : ShiftOperand} {s t : State} (h : shiftOperand f o s = .next t) (hs : P s) :
    P t := by
  cases o with
  | acc => cases h; exact c.setShiftFlags _ (c.a _ _ hs)
  | mem m => exact c.modifying (fun _ hr => c.setShiftFlags _ hr) h hs

theorem branching {b : Bool} {d : Byte} {s t : State} (h : branchIf b d s = .next t) (hs : P s) : P t := by
  cases h
  cases b
  · exact hs
  · exact c.pc _ _ hs

/-- Every instruction keeps a closed property. -/
theorem exec {i : Instr} {s t : State} (h : Machine.exec i s = .next t) (hs : P s) : P t := by
  cases i with
  | lda o => exact c.reading (fun _ hr => c.setNZ _ (c.a _ _ hr)) h hs
  | ldx o => exact c.reading (fun _ hr => c.setNZ _ (c.x _ _ hr)) h hs
  | ldy o => exact c.reading (fun _ hr => c.setNZ _ (c.y _ _ hr)) h hs
  | sta m => exact c.busWrite h hs
  | stx m => exact c.busWrite h hs
  | sty m => exact c.busWrite h hs
  | tax => cases h; exact c.setNZ _ (c.x _ _ hs)
  | tay => cases h; exact c.setNZ _ (c.y _ _ hs)
  | txa => cases h; exact c.setNZ _ (c.a _ _ hs)
  | tya => cases h; exact c.setNZ _ (c.a _ _ hs)
  | tsx => cases h; exact c.setNZ _ (c.x _ _ hs)
  | txs => cases h; exact c.sp _ _ hs
  | pha => cases h; exact c.push _ hs
  | php => cases h; exact c.push _ hs
  | pla => cases h; exact c.setNZ _ (c.a _ _ (c.pulled hs))
  | plp => cases h; exact c.p _ _ (.inr rfl) (c.pulled hs)
  | adc o => exact c.reading (fun _ hr => c.addWithCarry _ hr) h hs
  | sbc o => exact c.reading (fun _ hr => c.addWithCarry _ hr) h hs
  | and o => exact c.reading (fun _ hr => c.setResultA _ hr) h hs
  | ora o => exact c.reading (fun _ hr => c.setResultA _ hr) h hs
  | eor o => exact c.reading (fun _ hr => c.setResultA _ hr) h hs
  | bit m => exact c.reading (o := .mem m) (f := fun r => r.2.bitTest r.1) (fun _ hr => c.p _ _ (.inl rfl) hr) h hs
  | cmp o => exact c.reading (fun _ hr => c.compare _ _ hr) h hs
  | cpx o => exact c.reading (fun _ hr => c.compare _ _ hr) h hs
  | cpy o => exact c.reading (fun _ hr => c.compare _ _ hr) h hs
  | inc m => exact c.modifying (fun _ hr => c.setNZ _ hr) h hs
  | dec m => exact c.modifying (fun _ hr => c.setNZ _ hr) h hs
  | inx => cases h; exact c.setNZ _ (c.x _ _ hs)
  | iny => cases h; exact c.setNZ _ (c.y _ _ hs)
  | dex => cases h; exact c.setNZ _ (c.x _ _ hs)
  | dey => cases h; exact c.setNZ _ (c.y _ _ hs)
  | asl o => exact c.shifting h hs
  | lsr o => exact c.shifting h hs
  | rol o => exact c.shifting h hs
  | ror o => exact c.shifting h hs
  | jmp t =>
    obtain ⟨⟨w, u⟩, h1, h2⟩ := Res.andThen_eq_next.1 h
    cases h2
    refine c.pc _ _ ?_
    cases t with
    | abs w => cases h1; exact hs
    | ind w =>
      obtain ⟨⟨lo, q⟩, h3, h4⟩ := Res.andThen_eq_next.1 h1
      obtain ⟨⟨hi, q'⟩, h5, h6⟩ := Res.andThen_eq_next.1 h4
      cases h6
      exact c.busRead h5 (c.busRead h3 hs)
  | jsr w => cases h; exact c.pc _ _ (c.pushWord _ hs)
  | rts => cases h; exact c.pc _ _ (c.pulled (c.pulled hs))
  | rti => cases h; exact c.pc _ _ (c.pulled (c.pulled (c.p _ _ (.inr rfl) (c.pulled hs))))
  | brk => cases h; exact c.takeInterrupt _ _ _ hs
  | bcc d => exact c.branching h hs
  | bcs d => exact c.branching h hs
  | beq d => exact c.branching h hs
  | bne d => exact c.branching h hs
  | bmi d => exact c.branching h hs
  | bpl d => exact c.branching h hs
  | bvc d => exact c.branching h hs
  | bvs d => exact c.branching h hs
  | clc => cases h; exact c.p _ _ (.inl rfl) hs
  | sec => cases h; exact c.p _ _ (.inl rfl) hs
  | cli => cases h; exact c.p _ _ (.inl rfl) hs
  | sei => cases h; exact c.p _ _ (.inl rfl) hs
  | cld => cases h; exact c.p _ _ (.inl rfl) hs
  | sed => cases h; exact c.p _ _ (.inl rfl) hs
  | clv => cases h; exact c.p _ _ (.inl rfl) hs
  | nop => cases h; exact hs
  | nopU op o => cases h; exact hs
  | lax m => exact c.reading (o := .mem m) (fun _ hr => c.setNZ _ (c.x _ _ (c.a _ _ hr))) h hs
  | sax m => exact c.busWrite h hs
  | sbcU v => cases h; exact c.addWithCarry _ hs
  | dcp m => exact c.modifying (fun _ hr => c.compare _ _ hr) h hs
  | isb m => exact c.modifying (fun _ hr => c.addWithCarry _ hr) h hs
  | slo m => exact c.modifying (fun _ hr => c.setCarryThenA _ _ hr) h hs
  | rla m => exact c.modifying (fun _ hr => c.setCarryThenA _ _ hr) h hs
  | sre m => exact c.modifying (fun _ hr => c.setCarryThenA _ _ hr) h hs
  | rra m => exact c.modifying (fun _ hr => c.addWithCarry _ (c.setC _ hr)) h hs
  | illegal op => cases h

/-- The state that a step hands to the PPU keeps a closed property of the state after the environment's move: what the
step ends in is `PPU.run` from it. -/
theorem step {s t : State} (h : Machine.step s = .next t) (hs : P (environmentMove s)) : ∃ n u, P u ∧ t = ppuRun n u := by
  obtain ⟨s1, i, s2, u, h1, h2, h3, rfl⟩ := step_next.1 h
  exact ⟨_, _, c.stepped _ (c.cycles _ _ (c.exec h3 (c.fetchInstr h2 (c.beginStep h1 hs)))), rfl⟩

end CpuClosed

end Sys2Proof.Machine
end

