-- ==== Sys2Proof/Tests/Slice0.lean ====
section
/-! SUPPORT. Tests: the decoder against bytes written out from the "Encoding" lines of files 40 to 46, one refused term
for each check of WellFormed, one step of each instruction against its vector of 95_test_vectors.md, the devices against
the sequences of that file, and for every statement with hypotheses a witness that meets them. -/

namespace Sys2Proof.Tests

open Sys2Proof Sys2Proof.Machine

/-! Decoding. The bytes are the spec's, the instructions are what its rules say they are. -/

/-- Each list of bytes is one whole instruction, read as the instruction beside it and written back the same. -/
def testCodes (codes : List (List Byte × Instr)) : Bool :=
  codes.all fun e =>
    (match decode e.1 with
      | .ok (j, []) => decide (j = e.2)
      | _ => false) && decide (encode e.2 = e.1) && e.2.wellFormed

theorem test_decode_loads :   -- R131 to R136
    testCodes
    [([0xA9, 0x80], .lda (.imm 0x80)), ([0xB1, 0x10], .lda (.mem (.indY 0x10))),
     ([0xB6, 0xF0], .ldx (.mem (.zpY 0xF0))), ([0xBC, 0x00, 0x03], .ldy (.mem (.absX 0x0300))),
     ([0x99, 0x34, 0x12], .sta (.absY 0x1234)), ([0x8E, 0xFF, 0x00], .stx (.abs 0x00FF)),
     ([0x94, 0x10], .sty (.zpX 0x10))] = true := by decide

theorem test_decode_transfers :   -- R141 to R150
    testCodes
    [([0xAA], .tax), ([0xA8], .tay), ([0x8A], .txa), ([0x98], .tya), ([0xBA], .tsx), ([0x9A], .txs),
     ([0x48], .pha), ([0x08], .php), ([0x68], .pla), ([0x28], .plp)] = true := by decide

theorem test_decode_arithmetic :   -- R161 to R175
    testCodes
    [([0x7D, 0x00, 0x03], .adc (.mem (.absX 0x0300))), ([0xE9, 0x01], .sbc (.imm 0x01)),
     ([0x21, 0x0F], .and (.mem (.indX 0x0F))), ([0x09, 0x81], .ora (.imm 0x81)),
     ([0x4D, 0x01, 0x80], .eor (.mem (.abs 0x8001))), ([0x2C, 0x02, 0x20], .bit (.abs 0x2002)),
     ([0xD1, 0x10], .cmp (.mem (.indY 0x10))), ([0xE4, 0x10], .cpx (.mem (.zp 0x10))),
     ([0xC0, 0x80], .cpy (.imm 0x80)), ([0xFE, 0x00, 0x03], .inc (.absX 0x0300)), ([0xD6, 0x10], .dec (.zpX 0x10)),
     ([0xE8], .inx), ([0xC8], .iny), ([0xCA], .dex), ([0x88], .dey)] = true := by decide

theorem test_decode_shifts :   -- R180 to R184
    testCodes
    [([0x0A], .asl .acc), ([0x5E, 0x00, 0x03], .lsr (.mem (.absX 0x0300))),
     ([0x36, 0x10], .rol (.mem (.zpX 0x10))), ([0x6E, 0x00, 0x03], .ror (.mem (.abs 0x0300))), 
     ([0x6A], .ror .acc)] = true := by decide

theorem test_decode_control :   -- R190 to R204
    testCodes
    [([0x4C, 0x00, 0x90], .jmp (.abs 0x9000)), ([0x6C, 0xFF, 0x02], .jmp (.ind 0x02FF)),
     ([0x20, 0x10, 0x80], .jsr 0x8010), ([0x60], .rts), ([0x40], .rti), ([0x00], .brk), ([0x90, 0x02], .bcc 0x02),
     ([0xB0, 0x7F], .bcs 0x7F), ([0xF0, 0x01], .beq 0x01), ([0xD0, 0xFB], .bne 0xFB), ([0x30, 0x80], .bmi 0x80),
     ([0x10, 0xFE], .bpl 0xFE), ([0x50, 0x02], .bvc 0x02), ([0x70, 0x02], .bvs 0x02)] = true := by decide

theorem test_decode_flags :   -- R210 to R217
    testCodes
    [([0x18], .clc), ([0x38], .sec), ([0x58], .cli), ([0x78], .sei), ([0xD8], .cld), ([0xF8], .sed),
     ([0xB8], .clv), ([0xEA], .nop)] = true := by decide

theorem test_decode_undocumented :   -- R221 to R231
    testCodes
    [([0x1A], .nopU 0x1A .implied), ([0x80, 0xFF], .nopU 0x80 (.imm 0xFF)),
     ([0x3C, 0x00, 0x02], .nopU 0x3C (.mem (.absX 0x0200))), ([0xB3, 0x10], .lax (.indY 0x10)),
     ([0x83, 0x10], .sax (.indX 0x10)), ([0xEB, 0x01], .sbcU 0x01), ([0xC7, 0x10], .dcp (.zp 0x10)),
     ([0xFF, 0x00, 0x03], .isb (.absX 0x0300)), ([0x07, 0x10], .slo (.zp 0x10)), ([0x27, 0x10], .rla (.zp 0x10)),
     ([0x47, 0x10], .sre (.zp 0x10)), ([0x7B, 0x00, 0x03], .rra (.absY 0x0300)), ([0x8B], .illegal 0x8B)] = true := by decide

/-- A missing operand byte is reported by name (R100). -/
theorem test_decode_short : decode [0xAD, 0x00] = .error (.operandMissing 0xAD) ∧ decode [] = .error .noBytes :=
  ⟨rfl, rfl⟩

/-- One ill-formed term for each check of `Instr.wellFormed`: a mode that the rule's "Encoding" line does not list. -/
def testIllFormed : List (List Instr) :=
  [[.lda (.mem (.zpY 0)), .adc (.mem (.zpY 0)), .sbc (.mem (.zpY 0)), .and (.mem (.zpY 0)), .ora (.mem (.zpY 0)),
   .eor (.mem (.zpY 0)), .cmp (.mem (.zpY 0)), .ldx (.mem (.zpX 0)), .ldy (.mem (.zpY 0)), .cpx (.mem (.zpX 0)),
   .cpy (.mem (.absX 0))],
   [.sta (.zpY 0), .stx (.zpX 0), .sty (.zpY 0), .bit (.absX 0), .inc (.absY 0), .dec (.indX 0),
   .asl (.mem (.absY 0)), .lsr (.mem (.zpY 0)), .rol (.mem (.indY 0)), .ror (.mem (.indX 0))],
   [.nopU 0xEA .implied, .nopU 0x04 (.imm 0), .nopU 0x0C (.mem (.indX 0)), .lax (.absX 0), .sax (.absX 0),
   .dcp (.zpY 0), .isb (.zpY 0), .slo (.zpY 0), .rla (.zpY 0), .sre (.zpY 0), .rra (.zpY 0), .illegal 0x00]]

theorem test_illFormed_refused : (testIllFormed.flatten.map Instr.wellFormed).all not = true := by decide

/-! One step of each instruction, against the vectors of 95_test_vectors.md, whose number ends each name. -/

/-- The registers of a vector. -/
structure TestRegs where
  a  : Byte
  x  : Byte
  y  : Byte
  sp : Byte
  p  : Byte
  deriving DecidableEq, Repr

/-- A vector's start: the registers, the RAM cells, the code at the pc; the IRQ vector is 0x9000. -/
def testStart (r : TestRegs) (pc : Addr) (ram : Memory) (code : List Byte) : State :=
  placeBytes pc code { State.reset with
    a := r.a, x := r.x, y := r.y, sp := r.sp, p := Flags.ofByte r.p, pc := pc, ram := ram
    cart := { State.reset.cart with prg := [(0x7FFF, 0x90)] }
    env := { State.reset.env with sprite0Hit := .never, externalIrq := .never } }

/-- A vector's end after one step: the registers, the pc, the cycles, and RAM at the given cells. -/
def testEnd (cells : List Nat) (s : State) : Option (TestRegs × Addr × Nat × List Byte) :=
  match step s with
  | .next t => some (⟨t.a, t.x, t.y, t.sp, t.p.toByte⟩, t.pc, t.cycles, cells.map t.ram.read)
  | .fault _ | .refused _ => none

theorem test_lda_V8 : testEnd [] (testStart ⟨0x00, 0x01, 0x00, 0xFD, 0x34⟩ 0x8000 [(0x0000, 0x02), (0x00FF, 0x34), (0x0100, 0x07), (0x0234, 0xC0), (0x0734, 0x11)]
    [0xA1, 0xFE]) =
  some (⟨0xC0, 0x01, 0x00, 0xFD, 0xB4⟩, 0x8002, 6, []) := by decide
theorem test_lda_V22 : testEnd [] (testStart ⟨0x00, 0x01, 0x00, 0xFD, 0x34⟩ 0x8000 [(0x0000, 0x99)]
    [0xBD, 0xFF, 0xFF]) =
  some (⟨0x99, 0x01, 0x00, 0xFD, 0xB4⟩, 0x8003, 5, []) := by decide
theorem test_ldx_V11 : testEnd [] (testStart ⟨0x00, 0x00, 0xFF, 0xFD, 0x34⟩ 0x8000 [(0x000F, 0x7E), (0x010F, 0x01)]
    [0xB6, 0x10]) =
  some (⟨0x00, 0x7E, 0xFF, 0xFD, 0x34⟩, 0x8002, 4, []) := by decide
theorem test_ldx_V12 : testEnd [] (testStart ⟨0x00, 0x12, 0x00, 0xFD, 0x34⟩ 0x8000 []
    [0xA2, 0x00]) =
  some (⟨0x00, 0x00, 0x00, 0xFD, 0x36⟩, 0x8002, 2, []) := by decide
theorem test_ldy_V13 : testEnd [] (testStart ⟨0x00, 0xFF, 0x00, 0xFD, 0x34⟩ 0x8000 [(0x03FF, 0xFF)]
    [0xBC, 0x00, 0x03]) =
  some (⟨0x00, 0xFF, 0xFF, 0xFD, 0xB4⟩, 0x8003, 4, []) := by decide
theorem test_sta_V17 : testEnd [0x0300] (testStart ⟨0xA5, 0x00, 0x01, 0xFD, 0x34⟩ 0x8000 [(0x0010, 0xFF), (0x0011, 0x02)]
    [0x91, 0x10]) =
  some (⟨0xA5, 0x00, 0x01, 0xFD, 0x34⟩, 0x8002, 6, [0xA5]) := by decide
theorem test_sta_V18 : testEnd [0x0000] (testStart ⟨0x77, 0x00, 0x00, 0xFD, 0x34⟩ 0x8000 []
    [0x8D, 0x00, 0x08]) =
  some (⟨0x77, 0x00, 0x00, 0xFD, 0x34⟩, 0x8003, 4, [0x77]) := by decide
theorem test_stx_V19 : testEnd [0x0008] (testStart ⟨0x00, 0x80, 0xF8, 0xFD, 0x34⟩ 0x8000 []
    [0x96, 0x10]) =
  some (⟨0x00, 0x80, 0xF8, 0xFD, 0x34⟩, 0x8002, 4, [0x80]) := by decide
theorem test_sty_V20 : testEnd [0x0011] (testStart ⟨0x00, 0x01, 0x00, 0xFD, 0xB4⟩ 0x8000 []
    [0x94, 0x10]) =
  some (⟨0x00, 0x01, 0x00, 0xFD, 0xB4⟩, 0x8002, 4, [0x00]) := by decide
theorem test_tax_V30 : testEnd [] (testStart ⟨0x80, 0x00, 0x00, 0xFD, 0x34⟩ 0x8000 []
    [0xAA]) =
  some (⟨0x80, 0x80, 0x00, 0xFD, 0xB4⟩, 0x8001, 2, []) := by decide
theorem test_tay_V31 : testEnd [] (testStart ⟨0x00, 0x00, 0x05, 0xFD, 0x34⟩ 0x8000 []
    [0xA8]) =
  some (⟨0x00, 0x00, 0x00, 0xFD, 0x36⟩, 0x8001, 2, []) := by decide
theorem test_txa_V32 : testEnd [] (testStart ⟨0x00, 0x7F, 0x00, 0xFD, 0x34⟩ 0x8000 []
    [0x8A]) =
  some (⟨0x7F, 0x7F, 0x00, 0xFD, 0x34⟩, 0x8001, 2, []) := by decide
theorem test_tya_V33 : testEnd [] (testStart ⟨0x00, 0x00, 0xFF, 0xFD, 0x34⟩ 0x8000 []
    [0x98]) =
  some (⟨0xFF, 0x00, 0xFF, 0xFD, 0xB4⟩, 0x8001, 2, []) := by decide
theorem test_tsx_V34 : testEnd [] (testStart ⟨0x00, 0x00, 0x00, 0xFD, 0x34⟩ 0x8000 []
    [0xBA]) =
  some (⟨0x00, 0xFD, 0x00, 0xFD, 0xB4⟩, 0x8001, 2, []) := by decide
theorem test_txs_V35 : testEnd [] (testStart ⟨0x00, 0x00, 0x00, 0xFD, 0x34⟩ 0x8000 []
    [0x9A]) =
  some (⟨0x00, 0x00, 0x00, 0x00, 0x34⟩, 0x8001, 2, []) := by decide
theorem test_pha_V38 : testEnd [0x0100] (testStart ⟨0xAB, 0x00, 0x00, 0x00, 0x34⟩ 0x8000 []
    [0x48]) =
  some (⟨0xAB, 0x00, 0x00, 0xFF, 0x34⟩, 0x8001, 3, [0xAB]) := by decide
theorem test_php_V40 : testEnd [0x01FD] (testStart ⟨0x00, 0x00, 0x00, 0xFD, 0xE5⟩ 0x8000 []
    [0x08]) =
  some (⟨0x00, 0x00, 0x00, 0xFC, 0xE5⟩, 0x8001, 3, [0xF5]) := by decide
theorem test_pla_V42 : testEnd [] (testStart ⟨0x01, 0x00, 0x00, 0xFF, 0x34⟩ 0x8000 [(0x0100, 0x80)]
    [0x68]) =
  some (⟨0x80, 0x00, 0x00, 0x00, 0xB4⟩, 0x8001, 4, []) := by decide
theorem test_plp_V44 : testEnd [] (testStart ⟨0x00, 0x00, 0x00, 0xFC, 0x24⟩ 0x8000 [(0x01FD, 0xFF)]
    [0x28]) =
  some (⟨0x00, 0x00, 0x00, 0xFD, 0xEF⟩, 0x8001, 4, []) := by decide
theorem test_plp_V45 : testEnd [] (testStart ⟨0x00, 0x00, 0x00, 0xFC, 0xF7⟩ 0x8000 []
    [0x28]) =
  some (⟨0x00, 0x00, 0x00, 0xFD, 0x30⟩, 0x8001, 4, []) := by decide
theorem test_adc_V50 : testEnd [] (testStart ⟨0x50, 0x00, 0x00, 0xFD, 0x34⟩ 0x8000 []
    [0x69, 0x50]) =
  some (⟨0xA0, 0x00, 0x00, 0xFD, 0xF4⟩, 0x8002, 2, []) := by decide
theorem test_adc_V55 : testEnd [] (testStart ⟨0x80, 0x00, 0x00, 0xFD, 0x35⟩ 0x8000 []
    [0x69, 0xFF]) =
  some (⟨0x80, 0x00, 0x00, 0xFD, 0xB5⟩, 0x8002, 2, []) := by decide
theorem test_sbc_V60 : testEnd [] (testStart ⟨0x80, 0x00, 0x00, 0xFD, 0x35⟩ 0x8000 []
    [0xE9, 0x01]) =
  some (⟨0x7F, 0x00, 0x00, 0xFD, 0x75⟩, 0x8002, 2, []) := by decide
theorem test_sbc_V63 : testEnd [] (testStart ⟨0x10, 0x00, 0x00, 0xFD, 0x3D⟩ 0x8000 []
    [0xE9, 0x01]) =
  some (⟨0x0F, 0x00, 0x00, 0xFD, 0x3D⟩, 0x8002, 2, []) := by decide
theorem test_and_V65 : testEnd [] (testStart ⟨0xFF, 0x00, 0x00, 0xFD, 0x34⟩ 0x8000 [(0x0010, 0x80)]
    [0x25, 0x10]) =
  some (⟨0x80, 0x00, 0x00, 0xFD, 0xB4⟩, 0x8002, 3, []) := by decide
theorem test_ora_V66 : testEnd [] (testStart ⟨0x00, 0x00, 0x00, 0xFD, 0xB4⟩ 0x8000 []
    [0x09, 0x00]) =
  some (⟨0x00, 0x00, 0x00, 0xFD, 0x36⟩, 0x8002, 2, []) := by decide
theorem test_eor_V69 : testEnd [] (testStart ⟨0x0F, 0x00, 0x00, 0xFD, 0x34⟩ 0x8000 []
    [0x49, 0xFF]) =
  some (⟨0xF0, 0x00, 0x00, 0xFD, 0xB4⟩, 0x8002, 2, []) := by decide
theorem test_bit_V70 : testEnd [] (testStart ⟨0x01, 0x00, 0x00, 0xFD, 0x34⟩ 0x8000 [(0x0010, 0xC0)]
    [0x24, 0x10]) =
  some (⟨0x01, 0x00, 0x00, 0xFD, 0xF6⟩, 0x8002, 3, []) := by decide
theorem test_cmp_V75 : testEnd [] (testStart ⟨0x00, 0x00, 0x00, 0xFD, 0x34⟩ 0x8000 []
    [0xC9, 0xFF]) =
  some (⟨0x00, 0x00, 0x00, 0xFD, 0x34⟩, 0x8002, 2, []) := by decide
theorem test_cmp_V76 : testEnd [] (testStart ⟨0x80, 0x00, 0x00, 0xFD, 0x74⟩ 0x8000 []
    [0xC9, 0x00]) =
  some (⟨0x80, 0x00, 0x00, 0xFD, 0xF5⟩, 0x8002, 2, []) := by decide
theorem test_cpx_V77 : testEnd [] (testStart ⟨0x00, 0x05, 0x00, 0xFD, 0x34⟩ 0x8000 [(0x0010, 0x04)]
    [0xE4, 0x10]) =
  some (⟨0x00, 0x05, 0x00, 0xFD, 0x35⟩, 0x8002, 3, []) := by decide
theorem test_cpy_V78 : testEnd [] (testStart ⟨0x00, 0x00, 0x7F, 0xFD, 0x35⟩ 0x8000 []
    [0xC0, 0x80]) =
  some (⟨0x00, 0x00, 0x7F, 0xFD, 0xB4⟩, 0x8002, 2, []) := by decide
theorem test_inc_V80 : testEnd [0x03FF] (testStart ⟨0x00, 0xFF, 0x00, 0xFD, 0x35⟩ 0x8000 [(0x03FF, 0x7F)]
    [0xFE, 0x00, 0x03]) =
  some (⟨0x00, 0xFF, 0x00, 0xFD, 0xB5⟩, 0x8003, 7, [0x80]) := by decide
theorem test_dec_V82 : testEnd [0x0001] (testStart ⟨0x00, 0xF1, 0x00, 0xFD, 0x34⟩ 0x8000 [(0x0001, 0x01)]
    [0xD6, 0x10]) =
  some (⟨0x00, 0xF1, 0x00, 0xFD, 0x36⟩, 0x8002, 6, [0x00]) := by decide
theorem test_inx_V83 : testEnd [] (testStart ⟨0x00, 0xFF, 0x00, 0xFD, 0x34⟩ 0x8000 []
    [0xE8]) =
  some (⟨0x00, 0x00, 0x00, 0xFD, 0x36⟩, 0x8001, 2, []) := by decide
theorem test_iny_V84 : testEnd [] (testStart ⟨0x00, 0x00, 0x7F, 0xFD, 0x34⟩ 0x8000 []
    [0xC8]) =
  some (⟨0x00, 0x00, 0x80, 0xFD, 0xB4⟩, 0x8001, 2, []) := by decide
theorem test_dex_V85 : testEnd [] (testStart ⟨0x00, 0x00, 0x00, 0xFD, 0x34⟩ 0x8000 []
    [0xCA]) =
  some (⟨0x00, 0xFF, 0x00, 0xFD, 0xB4⟩, 0x8001, 2, []) := by decide
theorem test_dey_V86 : testEnd [] (testStart ⟨0x00, 0x00, 0x01, 0xFD, 0x34⟩ 0x8000 []
    [0x88]) =
  some (⟨0x00, 0x00, 0x00, 0xFD, 0x36⟩, 0x8001, 2, []) := by decide
theorem test_asl_V91 : testEnd [] (testStart ⟨0x40, 0x00, 0x00, 0xFD, 0x35⟩ 0x8000 []
    [0x0A]) =
  some (⟨0x80, 0x00, 0x00, 0xFD, 0xB4⟩, 0x8001, 2, []) := by decide
theorem test_asl_V92 : testEnd [0x0010] (testStart ⟨0x00, 0x00, 0x00, 0xFD, 0x34⟩ 0x8000 [(0x0010, 0xC1)]
    [0x06, 0x10]) =
  some (⟨0x00, 0x00, 0x00, 0xFD, 0xB5⟩, 0x8002, 5, [0x82]) := by decide
theorem test_lsr_V94 : testEnd [0x0301] (testStart ⟨0x00, 0x01, 0x00, 0xFD, 0x35⟩ 0x8000 [(0x0301, 0xFE)]
    [0x5E, 0x00, 0x03]) =
  some (⟨0x00, 0x01, 0x00, 0xFD, 0x34⟩, 0x8003, 7, [0x7F]) := by decide
theorem test_rol_V96 : testEnd [] (testStart ⟨0x80, 0x00, 0x00, 0xFD, 0x34⟩ 0x8000 []
    [0x2A]) =
  some (⟨0x00, 0x00, 0x00, 0xFD, 0x37⟩, 0x8001, 2, []) := by decide
theorem test_rol_V97 : testEnd [0x0011] (testStart ⟨0x00, 0x01, 0x00, 0xFD, 0x35⟩ 0x8000 [(0x0011, 0x40)]
    [0x36, 0x10]) =
  some (⟨0x00, 0x01, 0x00, 0xFD, 0xB4⟩, 0x8002, 6, [0x81]) := by decide
theorem test_ror_V98 : testEnd [] (testStart ⟨0x01, 0x00, 0x00, 0xFD, 0x34⟩ 0x8000 []
    [0x6A]) =
  some (⟨0x00, 0x00, 0x00, 0xFD, 0x37⟩, 0x8001, 2, []) := by decide
theorem test_ror_V100 : testEnd [0x0300] (testStart ⟨0x00, 0x00, 0x00, 0xFD, 0x35⟩ 0x8000 [(0x0300, 0x02)]
    [0x6E, 0x00, 0x03]) =
  some (⟨0x00, 0x00, 0x00, 0xFD, 0xB4⟩, 0x8003, 6, [0x81]) := by decide
theorem test_jmp_V120 : testEnd [] (testStart ⟨0x00, 0x00, 0x00, 0xFD, 0x34⟩ 0x8000 []
    [0x4C, 0x00, 0x90]) =
  some (⟨0x00, 0x00, 0x00, 0xFD, 0x34⟩, 0x9000, 3, []) := by decide
theorem test_jmp_V121 : testEnd [] (testStart ⟨0x00, 0x00, 0x00, 0xFD, 0x34⟩ 0x8000 [(0x0200, 0x12), (0x02FF, 0x34), (0x0300, 0x56)]
    [0x6C, 0xFF, 0x02]) =
  some (⟨0x00, 0x00, 0x00, 0xFD, 0x34⟩, 0x1234, 5, []) := by decide
theorem test_jsr_V124 : testEnd [0x0100, 0x01FF] (testStart ⟨0x00, 0x00, 0x00, 0x00, 0x34⟩ 0x80FE []
    [0x20, 0x00, 0x90]) =
  some (⟨0x00, 0x00, 0x00, 0xFE, 0x34⟩, 0x9000, 6, [0x81, 0x00]) := by decide
theorem test_rts_V126 : testEnd [] (testStart ⟨0x00, 0x00, 0x00, 0xFB, 0x34⟩ 0x8000 [(0x01FC, 0xFF), (0x01FD, 0xFF)]
    [0x60]) =
  some (⟨0x00, 0x00, 0x00, 0xFD, 0x34⟩, 0x0000, 6, []) := by decide
theorem test_rti_V127 : testEnd [] (testStart ⟨0x00, 0x00, 0x00, 0xFA, 0x24⟩ 0x8000 [(0x01FB, 0x20), (0x01FC, 0x05), (0x01FD, 0x80)]
    [0x40]) =
  some (⟨0x00, 0x00, 0x00, 0xFD, 0x20⟩, 0x8005, 6, []) := by decide
theorem test_rti_V128 : testEnd [] (testStart ⟨0x00, 0x00, 0x00, 0xFA, 0x34⟩ 0x8000 [(0x01FB, 0xFF), (0x01FD, 0x90)]
    [0x40]) =
  some (⟨0x00, 0x00, 0x00, 0xFD, 0xFF⟩, 0x9000, 6, []) := by decide
theorem test_brk_V130 : testEnd [0x0101, 0x0100, 0x01FF] (testStart ⟨0x00, 0x00, 0x00, 0x01, 0xE1⟩ 0x8000 []
    [0x00]) =
  some (⟨0x00, 0x00, 0x00, 0xFE, 0xF5⟩, 0x9000, 7, [0x80, 0x02, 0xF1]) := by decide
theorem test_bcc_V131a : testEnd [] (testStart ⟨0x00, 0x00, 0x00, 0xFD, 0x34⟩ 0x8000 []
    [0x90, 0x02]) =
  some (⟨0x00, 0x00, 0x00, 0xFD, 0x34⟩, 0x8004, 3, []) := by decide
theorem test_bcc_V131b : testEnd [] (testStart ⟨0x00, 0x00, 0x00, 0xFD, 0x35⟩ 0x8000 []
    [0x90, 0x02]) =
  some (⟨0x00, 0x00, 0x00, 0xFD, 0x35⟩, 0x8002, 2, []) := by decide
theorem test_bcs_V144 : testEnd [] (testStart ⟨0x00, 0x00, 0x00, 0xFD, 0x35⟩ 0x8080 []
    [0xB0, 0x7F]) =
  some (⟨0x00, 0x00, 0x00, 0xFD, 0x35⟩, 0x8101, 4, []) := by decide
theorem test_bcs_V132b : testEnd [] (testStart ⟨0x00, 0x00, 0x00, 0xFD, 0x34⟩ 0x8000 []
    [0xB0, 0x02]) =
  some (⟨0x00, 0x00, 0x00, 0xFD, 0x34⟩, 0x8002, 2, []) := by decide
theorem test_beq_V139 : testEnd [] (testStart ⟨0x00, 0x00, 0x00, 0xFD, 0x36⟩ 0x80FD []
    [0xF0, 0x01]) =
  some (⟨0x00, 0x00, 0x00, 0xFD, 0x36⟩, 0x8100, 4, []) := by decide
theorem test_beq_V133b : testEnd [] (testStart ⟨0x00, 0x00, 0x00, 0xFD, 0x34⟩ 0x8000 []
    [0xF0, 0x02]) =
  some (⟨0x00, 0x00, 0x00, 0xFD, 0x34⟩, 0x8002, 2, []) := by decide
theorem test_bne_V141 : testEnd [] (testStart ⟨0x00, 0x00, 0x00, 0xFD, 0x34⟩ 0x8100 []
    [0xD0, 0xFD]) =
  some (⟨0x00, 0x00, 0x00, 0xFD, 0x34⟩, 0x80FF, 4, []) := by decide
theorem test_bne_V134b : testEnd [] (testStart ⟨0x00, 0x00, 0x00, 0xFD, 0x36⟩ 0x8000 []
    [0xD0, 0x02]) =
  some (⟨0x00, 0x00, 0x00, 0xFD, 0x36⟩, 0x8002, 2, []) := by decide
theorem test_bmi_V145 : testEnd [] (testStart ⟨0x00, 0x00, 0x00, 0xFD, 0xB4⟩ 0x8010 []
    [0x30, 0x80]) =
  some (⟨0x00, 0x00, 0x00, 0xFD, 0xB4⟩, 0x7F92, 4, []) := by decide
theorem test_bmi_V135b : testEnd [] (testStart ⟨0x00, 0x00, 0x00, 0xFD, 0x34⟩ 0x8000 []
    [0x30, 0x02]) =
  some (⟨0x00, 0x00, 0x00, 0xFD, 0x34⟩, 0x8002, 2, []) := by decide
theorem test_bpl_V142 : testEnd [] (testStart ⟨0x00, 0x00, 0x00, 0xFD, 0x34⟩ 0x8000 []
    [0x10, 0xFE]) =
  some (⟨0x00, 0x00, 0x00, 0xFD, 0x34⟩, 0x8000, 3, []) := by decide
theorem test_bpl_V136b : testEnd [] (testStart ⟨0x00, 0x00, 0x00, 0xFD, 0xB4⟩ 0x8000 []
    [0x10, 0x02]) =
  some (⟨0x00, 0x00, 0x00, 0xFD, 0xB4⟩, 0x8002, 2, []) := by decide
theorem test_bvc_V137a : testEnd [] (testStart ⟨0x00, 0x00, 0x00, 0xFD, 0x34⟩ 0x8000 []
    [0x50, 0x02]) =
  some (⟨0x00, 0x00, 0x00, 0xFD, 0x34⟩, 0x8004, 3, []) := by decide
theorem test_bvc_V137b : testEnd [] (testStart ⟨0x00, 0x00, 0x00, 0xFD, 0x74⟩ 0x8000 []
    [0x50, 0x02]) =
  some (⟨0x00, 0x00, 0x00, 0xFD, 0x74⟩, 0x8002, 2, []) := by decide
theorem test_bvs_V138a : testEnd [] (testStart ⟨0x00, 0x00, 0x00, 0xFD, 0x74⟩ 0x8000 []
    [0x70, 0x02]) =
  some (⟨0x00, 0x00, 0x00, 0xFD, 0x74⟩, 0x8004, 3, []) := by decide
theorem test_bvs_V138b : testEnd [] (testStart ⟨0x00, 0x00, 0x00, 0xFD, 0x34⟩ 0x8000 []
    [0x70, 0x02]) =
  some (⟨0x00, 0x00, 0x00, 0xFD, 0x34⟩, 0x8002, 2, []) := by decide
theorem test_clc_V110 : testEnd [] (testStart ⟨0x00, 0x00, 0x00, 0xFD, 0x35⟩ 0x8000 []
    [0x18]) =
  some (⟨0x00, 0x00, 0x00, 0xFD, 0x34⟩, 0x8001, 2, []) := by decide
theorem test_sec_V111 : testEnd [] (testStart ⟨0x00, 0x00, 0x00, 0xFD, 0x34⟩ 0x8000 []
    [0x38]) =
  some (⟨0x00, 0x00, 0x00, 0xFD, 0x35⟩, 0x8001, 2, []) := by decide
theorem test_cli_V112 : testEnd [] (testStart ⟨0x00, 0x00, 0x00, 0xFD, 0x34⟩ 0x8000 []
    [0x58]) =
  some (⟨0x00, 0x00, 0x00, 0xFD, 0x30⟩, 0x8001, 2, []) := by decide
theorem test_sei_V113 : testEnd [] (testStart ⟨0x00, 0x00, 0x00, 0xFD, 0x30⟩ 0x8000 []
    [0x78]) =
  some (⟨0x00, 0x00, 0x00, 0xFD, 0x34⟩, 0x8001, 2, []) := by decide
theorem test_cld_V114 : testEnd [] (testStart ⟨0x00, 0x00, 0x00, 0xFD, 0x3C⟩ 0x8000 []
    [0xD8]) =
  some (⟨0x00, 0x00, 0x00, 0xFD, 0x34⟩, 0x8001, 2, []) := by decide
theorem test_sed_V115 : testEnd [] (testStart ⟨0x00, 0x00, 0x00, 0xFD, 0x34⟩ 0x8000 []
    [0xF8]) =
  some (⟨0x00, 0x00, 0x00, 0xFD, 0x3C⟩, 0x8001, 2, []) := by decide
theorem test_clv_V116 : testEnd [] (testStart ⟨0x00, 0x00, 0x00, 0xFD, 0x74⟩ 0x8000 []
    [0xB8]) =
  some (⟨0x00, 0x00, 0x00, 0xFD, 0x34⟩, 0x8001, 2, []) := by decide
theorem test_nop_V117 : testEnd [] (testStart ⟨0x00, 0x00, 0x00, 0xFD, 0xF7⟩ 0x8000 []
    [0xEA]) =
  some (⟨0x00, 0x00, 0x00, 0xFD, 0xF7⟩, 0x8001, 2, []) := by decide
theorem test_nopU_V154 : testEnd [] (testStart ⟨0x00, 0x00, 0x00, 0xFD, 0x34⟩ 0x8000 []
    [0x0C, 0x02, 0x20]) =
  some (⟨0x00, 0x00, 0x00, 0xFD, 0x34⟩, 0x8003, 4, []) := by decide
theorem test_nopU_V155 : testEnd [] (testStart ⟨0x00, 0x01, 0x00, 0xFD, 0x34⟩ 0x8000 []
    [0x1C, 0xFF, 0x02]) =
  some (⟨0x00, 0x01, 0x00, 0xFD, 0x34⟩, 0x8003, 5, []) := by decide
theorem test_lax_V158 : testEnd [] (testStart ⟨0x01, 0x02, 0x01, 0xFD, 0x34⟩ 0x8000 [(0x0010, 0xFF), (0x0011, 0x02)]
    [0xB3, 0x10]) =
  some (⟨0x00, 0x00, 0x01, 0xFD, 0x36⟩, 0x8002, 6, []) := by decide
theorem test_sax_V160 : testEnd [0x0300] (testStart ⟨0xFF, 0x01, 0x00, 0xFD, 0xB6⟩ 0x8000 [(0x0012, 0x03)]
    [0x83, 0x10]) =
  some (⟨0xFF, 0x01, 0x00, 0xFD, 0xB6⟩, 0x8002, 6, [0x01]) := by decide
theorem test_sbcU_V161 : testEnd [] (testStart ⟨0x00, 0x00, 0x00, 0xFD, 0x35⟩ 0x8000 []
    [0xEB, 0x01]) =
  some (⟨0xFF, 0x00, 0x00, 0xFD, 0xB4⟩, 0x8002, 2, []) := by decide
theorem test_dcp_V162 : testEnd [0x0010] (testStart ⟨0x10, 0x00, 0x00, 0xFD, 0x34⟩ 0x8000 [(0x0010, 0x11)]
    [0xC7, 0x10]) =
  some (⟨0x10, 0x00, 0x00, 0xFD, 0x37⟩, 0x8002, 5, [0x10]) := by decide
theorem test_dcp_V163 : testEnd [0x0010] (testStart ⟨0x00, 0x00, 0x00, 0xFD, 0x35⟩ 0x8000 []
    [0xC7, 0x10]) =
  some (⟨0x00, 0x00, 0x00, 0xFD, 0x34⟩, 0x8002, 5, [0xFF]) := by decide
theorem test_isb_V165 : testEnd [0x0301] (testStart ⟨0x00, 0x01, 0x00, 0xFD, 0x35⟩ 0x8000 [(0x0301, 0xFF)]
    [0xFF, 0x00, 0x03]) =
  some (⟨0x00, 0x01, 0x00, 0xFD, 0x37⟩, 0x8003, 7, [0x00]) := by decide
theorem test_slo_V166 : testEnd [0x0010] (testStart ⟨0x01, 0x00, 0x00, 0xFD, 0x34⟩ 0x8000 [(0x0010, 0x81)]
    [0x07, 0x10]) =
  some (⟨0x03, 0x00, 0x00, 0xFD, 0x35⟩, 0x8002, 5, [0x02]) := by decide
theorem test_rla_V167 : testEnd [0x0010] (testStart ⟨0xFF, 0x00, 0x00, 0xFD, 0x35⟩ 0x8000 [(0x0010, 0x80)]
    [0x27, 0x10]) =
  some (⟨0x01, 0x00, 0x00, 0xFD, 0x35⟩, 0x8002, 5, [0x01]) := by decide
theorem test_sre_V168 : testEnd [0x0010] (testStart ⟨0xFF, 0x00, 0x00, 0xFD, 0x34⟩ 0x8000 [(0x0010, 0x03)]
    [0x47, 0x10]) =
  some (⟨0xFE, 0x00, 0x00, 0xFD, 0xB5⟩, 0x8002, 5, [0x01]) := by decide
theorem test_rra_V169 : testEnd [0x0010] (testStart ⟨0x01, 0x00, 0x00, 0xFD, 0x35⟩ 0x8000 [(0x0010, 0x02)]
    [0x67, 0x10]) =
  some (⟨0x82, 0x00, 0x00, 0xFD, 0xB4⟩, 0x8002, 5, [0x81]) := by decide
theorem test_rra_V170 : testEnd [0x0301] (testStart ⟨0x7F, 0x00, 0x01, 0xFD, 0x34⟩ 0x8000 [(0x0301, 0x01)]
    [0x7B, 0x00, 0x03]) =
  some (⟨0x80, 0x00, 0x01, 0xFD, 0xF4⟩, 0x8003, 7, [0x00]) := by decide

/-- The fault of one step, if it is one. -/
def testFault (s : State) : Option Fault :=
  match step s with
  | .fault f => some f
  | .next _ | .refused _ => none

theorem test_illegal_V182 :
    testFault (testStart ⟨0, 0, 0, 0xFD, 0x34⟩ 0x8000 [] [0x9C, 0x00, 0x02]) = some (.illegalOpcode 0x9C 0x8000) := by
  decide

/-- V184, V185, V188, V189: the bus's own faults, and that a read-modify-write faults on its read. -/
theorem test_bus_faults :
    testFault (testStart ⟨0, 0, 0, 0xFD, 0x34⟩ 0x8000 [] [0xAD, 0x14, 0x40]) = some (.unmappedAddress (.read 0x4014)) ∧
    testFault (testStart ⟨1, 0, 0, 0xFD, 0x34⟩ 0x8000 [] [0x8D, 0x20, 0x40]) =
      some (.unmappedAddress (.write 0x4020 1)) ∧
    testFault (testStart ⟨0, 0, 0, 0xFD, 0x34⟩ 0x8000 [] [0xAD, 0x07, 0x20]) = some (.ppuDataReadRefused 0x2007) ∧
    testFault (testStart ⟨0, 0, 0, 0xFD, 0x34⟩ 0x8000 [] [0xEE, 0x14, 0x40]) =
      some (.unmappedAddress (.read 0x4014)) := by decide

/-! The devices, against the sequences of 95_test_vectors.md 2.9 to 2.12. -/

/-- The PPU after writes of (address, byte) pairs over the bus; none where one of them faults. -/
def testWrites (s : State) : List (Addr × Byte) → Option Ppu
  | [] => some s.ppu
  | (a, v) :: ws =>
    match busWrite a v s with
    | .next t => testWrites t ws
    | .fault _ | .refused _ => none

/-- The start of the device tests. -/
def testMachine : State := testStart ⟨0, 0, 0, 0xFD, 0x34⟩ 0x8000 [] [0xEA, 0xEA, 0xEA]

/-- Sequences A and C: the address latch adds its second byte. -/
theorem test_sequence_A_C :
    (testWrites testMachine [(0x2006, 0x20), (0x2006, 0x05), (0x2007, 0xAA), (0x2007, 0xBB)]).map
      (fun q => (q.vramAddr, q.vram.read 0x005, q.vram.read 0x006)) = some (0x2007, 0xAA, 0xBB) ∧
    (testWrites testMachine [(0x2006, 0x21), (0x2007, 0x01), (0x2006, 0xFF)]).map
      (fun q => (q.vramAddr, q.addrToggle, q.vram.read 0x100)) = some (0x2200, false, 0x01) := by decide

/-- Sequences D and E: the ports are mirrored, and entry 0x10 of the palette is entry 0. -/
theorem test_sequence_D_E :
    (testWrites testMachine [(0x3FFE, 0x3F), (0x2326, 0x10), (0x2007, 0x2A)]).map
      (fun q => (q.vramAddr, q.palette.read 0x00, q.palette.read 0x10)) = some (0x3F11, 0x2A, 0x00) ∧
    testWrites testMachine [(0x2006, 0x3F), (0x2006, 0x11), (0x2007, 0x40)] = none := by decide

/-- Sequence F, horizontal: 0x2800 is 0x2000 again, 0x2C01 is 0x2401. -/
theorem test_sequence_F :
    (testWrites testMachine [(0x2006, 0x28), (0x2006, 0x00), (0x2007, 0x11), (0x2006, 0x2C), (0x2006, 0x01),
      (0x2007, 0x33), (0x2006, 0x3E), (0x2006, 0xFF), (0x2007, 0x55)]).map
      (fun q => (q.vram.read 0x000, q.vram.read 0x401, q.vram.read 0x6FF, q.vram.read 0xEFF)) =
      some (0x11, 0x33, 0x55, 0x00) := by decide

/-- Sequence I: the OAM pointer wraps. -/
theorem test_sequence_I :
    (testWrites testMachine [(0x2003, 0xFE), (0x2004, 0x11), (0x2004, 0x22), (0x2004, 0x33)]).map
      (fun q => (q.oam.read 0xFE, q.oam.read 0xFF, q.oam.read 0x00, q.oamAddr)) = some (0x11, 0x22, 0x33, 0x01) := by
  decide

/-- The same machine with the PPU at a dot of a scanline, control and status given. -/
def testAt (scanline cycle : Nat) (ctrl status : Byte) : State :=
  { testMachine with
    ppu := { testMachine.ppu with scanline := scanline, cycle := cycle, ctrl := ctrl, status := status } }

/-- What one step makes of the PPU's position, its status, the NMI and the number of events. -/
def testDots (s : State) : Option (Nat × Nat × Byte × Bool × Nat) :=
  match step s with
  | .next t => some (t.ppu.scanline, t.ppu.cycle, t.ppu.status, t.nmi, t.events.length)
  | .fault _ | .refused _ => none

/-- X7: vblank and the NMI on entering scanline 241, with and without the enable; both gone at the wrap. -/
theorem test_X7 :
    [testAt 240 335 0x80 0x00, testAt 240 334 0x80 0x00, testAt 240 335 0x00 0x00, testAt 261 335 0x80 0x80].map
      testDots =
    [some (241, 0, 0x80, true, 0), some (240, 340, 0x00, false, 0), some (241, 0, 0x80, false, 0),
      some (0, 0, 0x00, false, 1)] := by decide

/-- V220: a pending NMI is taken before the instruction, at no cost; then the handler's INX runs. -/
theorem test_V220 :
    testEnd [0x01FD, 0x01FC, 0x01FB]
      { testStart ⟨0, 0, 0, 0xFD, 0x30⟩ 0x8000 [] [0xEA] with
        nmi := true, cart := { State.reset.cart with prg := [(0x1000, 0xE8), (0x7FFB, 0x90)] } } =
      some (⟨0, 1, 0, 0xFA, 0x24⟩, 0x9001, 2, [0x80, 0x00, 0x20]) := by decide

set_option maxRecDepth 100000 in
/-- V211: the copy runs before the instruction, and the step returns 514 + 3. -/
theorem test_V211 :
    (match step { testStart ⟨1, 0, 0, 0xFD, 0x34⟩ 0x8000 [(0x01FD, 0x99)] [0x48] with
        dmaPage := 0x01, dmaPending := true } with
      | .next t => some (t.ppu.oam.read 0xFD, t.ram.read 0x01FD, t.cycles, t.dmaPending)
      | _ => none) = some (0x99, 0x01, 517, false) := by decide

/-! Witnesses: a concrete state and operands that meet the hypotheses of each statement that has any, at the ends of the
ranges its clauses name. -/

/-- The outcome is a next state. -/
def testNext {α : Type} (o : Res α) : Bool :=
  match o with
  | .next _ => true
  | .fault _ | .refused _ => false

/-- The test machine with the code at 0x0200, where both RAM and the RAM invariant hold. -/
def testRam (code : List Byte) : State := testStart ⟨0x12, 0x34, 0x56, 0xFD, 0x30⟩ 0x0200 [(0x10, 0x80)] code

theorem test_witness_DecodeInvertsEncode :
    (Instr.lda (.mem (.indY 0xFF))).wellFormed = true ∧ (Instr.nopU 0xFC (.mem (.absX 0xFFFF))).wellFormed = true ∧
    (Instr.illegal 0xCB).wellFormed = true := by decide

theorem test_witness_EncodeInvertsDecode : decode [0xB6, 0xF0, 0xEA] = .ok (.ldx (.mem (.zpY 0xF0)), [0xEA]) := rfl

/-- The bytes in RAM, and bytes that go on from the top of ROM to RAM. -/
theorem test_witness_StepRunsDecoded :
    (beginStep (testRam [0xA9, 0x80]) = .next ((testRam [0xA9, 0x80]).setCycles 0) ∧
      holdsCode ((testRam [0xA9, 0x80]).setCycles 0) 0x0200 [0xA9, 0x80]) ∧
    holdsCode (testStart ⟨0, 0, 0, 0xFD, 0x34⟩ 0xFFFF [] [0xA9, 0x80]) 0xFFFF [0xA9, 0x80] ∧
    decode [0xA9, 0x80] = .ok (.lda (.imm 0x80), []) :=
  ⟨⟨rfl, by decide, by decide, trivial⟩, ⟨by decide, by decide, trivial⟩, rfl⟩

/-- The clauses of a step's start and of the run loop: the last page that is copied, the first that is not, and the dots on
both sides of a scanline. -/
theorem test_witness_StepRunsDecoded_clauses :
    testMachine.faulted = none ∧ testMachine.dmaPending = false ∧
    { testMachine with dmaPending := true, dmaPage := 0x07 }.dmaPage.toNat < 8 ∧
    8 ≤ { testMachine with dmaPending := true, dmaPage := 0x08 }.dmaPage.toNat ∧
    (testAt 0 340 0x00 0x00).ppu.cycle + 0 < 341 ∧ 341 ≤ (testAt 0 340 0x00 0x00).ppu.cycle + 1 ∧
    (testAt 0 340 0x00 0x00).ppu.cycle < 341 := by decide

/-- A NOP fetched from a port, the OAM byte that port 4 gives; and a pc where nothing is mapped. -/
theorem test_witness_StepRunsDecoded_fetch :
    (∃ s1 s2, beginStep { testMachine with
        pc := 0x2004, ppu := { testMachine.ppu with oam := [(0, 0xEA)] } } = .next s1 ∧ decode [0xEA] = .ok (.nop, []) ∧
      FetchesBytes [0xEA] s1 s2) ∧
    (∃ s1, beginStep { testMachine with pc := 0x4017 } = .next s1 ∧ decode [] = .error .noBytes ∧
      FetchesBytes [] s1 s1 ∧ busRead s1.pc s1 = .fault (.unmappedAddress (.read 0x4017)) ∧ s1.pc = 0x4017) ∧
    testFault { testMachine with pc := 0x4014 } = some (.unmappedAddress (.read 0x4014)) ∧
    testFault { testMachine with pc := 0x7FFF } = some (.unmappedAddress (.read 0x7FFF)) :=
  ⟨⟨_, _, rfl, rfl, _, rfl, rfl⟩, ⟨_, rfl, rfl, rfl, rfl, rfl⟩, by decide, by decide⟩

/-- An operand, a store and a pointer that do not answer, at the ends of the ranges. -/
theorem test_witness_FaultMarkStops_accesses :
    readable (effAddr (.abs 0x4014) testMachine) = false ∧ readable (effAddr (.absX 0x3FFF) testMachine) = false ∧
    readable (effAddr (.abs 0x7FFF) testMachine) = false ∧
    writable (effAddr (.abs 0x4020) testMachine) 0x00 testMachine = false ∧
    writable 0x2007 0x40 { testMachine with ppu := { testMachine.ppu with vramAddr := 0x3F00 } } = false ∧
    jumpReadable (.ind 0x2006) = false ∧ jumpReadable (.ind 0x4020) = false ∧
    testNext (busRead (effAddr (.abs 0x4016) testMachine) testMachine) = true := by decide

/-- 49_dma_sequencer R307: before the first step after power-on the environment makes no move, whatever its rule. -/
theorem test_first_step_no_move :
    (match step { testMachine with p := Flags.ofByte 0x20, env := { testMachine.env with externalIrq := .any } } with
      | .next t => some (t.draws, t.pc, t.stepped)
      | _ => none) = some (0, 0x8001, true) := by decide

/-- An illegal byte fetched from RAM, and one read at a port: the OAM byte that port 4 gives. -/
theorem test_witness_IllegalOpcodeFaults :
    ((0x02 : Byte) ∈ illegalOpcodes ∧ (0xCB : Byte) ∈ illegalOpcodes) ∧
    (∃ s1 s2, beginStep (testRam [0x9C]) = .next s1 ∧ fetchByte s1 = .next (0x9C, s2)) ∧
    ∃ s1 s2, beginStep { testMachine with
        pc := 0x2004, ppu := { testMachine.ppu with oam := [(0, 0x02)] } } = .next s1 ∧
      fetchByte s1 = .next (0x02, s2) :=
  ⟨by decide, ⟨_, _, rfl, rfl⟩, ⟨_, _, rfl, rfl⟩⟩

set_option maxRecDepth 100000 in
theorem test_witness_FaultMarkStops :
    { testMachine with faulted := some (.dmaSourceOutOfRange 8) }.faulted = some (.dmaSourceOutOfRange 8) ∧
    testNext (step testMachine) = true ∧ testMachine.faulted = none ∧ 8 ≤ (0x08 : Byte).toNat ∧
    (dmaRun { testMachine with dmaPage := 0x08, dmaPending := true }) = .fault (.dmaSourceOutOfRange 0x08) :=
  ⟨rfl, by decide, rfl, by decide, rfl⟩

/-- The last dot of the frame. -/
theorem test_witness_StepChargesCycles :
    testNext (step (testAt 261 340 0x80 0x80)) = true ∧ (testAt 261 340 0x80 0x80).ppu.cycle < 341 ∧
    (testAt 261 340 0x80 0x80).ppu.scanline < 262 := by decide

theorem test_witness_NmiEntersHandler :
    { testRam [0xEA] with nmi := true }.ram.wf 0x800 = true ∧ { testRam [0xEA] with nmi := true }.nmi = true := by decide

theorem test_witness_IrqEntersOrWaits :
    ({ testRam [0xEA] with irq := true }.ram.wf 0x800 = true ∧ { testRam [0xEA] with irq := true }.nmi = false ∧
      { testRam [0xEA] with irq := true }.p.i = false) ∧
    (testMachine.nmi = false ∧ { testMachine with irq := true }.p.i = true) ∧
    ({ testRam [0xEA] with nmi := true, irq := true }.nmi = true ∧
      { testRam [0xEA] with nmi := true, irq := true }.irq = true) := by decide

theorem test_witness_BrkEntersHandler : (testRam [0x00]).ram.wf 0x800 = true := by decide

/-- At both ends of the stack page. -/
theorem test_witness_RtiUndoesEntry :
    (testRam [0x00]).p.r = true ∧ { testRam [0x00] with sp := 0x01 }.ram.wf 0x800 = true ∧
    { testRam [0x00] with sp := 0xFF }.p.r = true := by decide

/-- The ends of every range of the read decoder, each in one clause alone. -/
theorem test_witness_BusReadsDecoded :
    [0x0000, 0x1FFF].map readTarget = [.ram 0, .ram 0x7FF] ∧
    [0x2000, 0x2006, 0x3FFD].map readTarget = [.port .ctrl, .port .vramAddr, .port .scroll] ∧
    [0x4000, 0x4014, 0x4017, 0x7FFF].map readTarget = [.unmapped, .unmapped, .unmapped, .unmapped] ∧
    [0x4015, 0x4016, 0x8000, 0xFFFF].map readTarget = [.audioStatus, .input, .rom, .rom] := by decide

/-- The ends of every range of the write decoder, each in one clause alone. -/
theorem test_witness_BusWritesDecoded :
    [0x0000, 0x1FFF].map writeTarget = [.ram 0, .ram 0x7FF] ∧
    [0x2000, 0x3FFF].map writeTarget = [.port .ctrl, .port .data] ∧
    [0x4000, 0x4013, 0x4015, 0x4017, 0x401F].map writeTarget =
      [.audio 0, .audio 0x13, .audio 0x15, .audio 0x17, .audio 0x1F] ∧
    [0x4014, 0x4016, 0x4020, 0x7FFF, 0x8000, 0xFFFF].map writeTarget =
      [.dma, .input, .unmapped, .unmapped, .rom, .rom] := by decide

theorem test_witness_RamReadsBackThroughMirrors :
    testMachine.ram.wf 0x800 = true ∧ (∃ t, busWrite 0x07FF 0xFF testMachine = .next t) ∧
    (0x1FFF : Addr).toNat % 0x800 = (0x07FF : Addr).toNat % 0x800 ∧
    (0x1FFE : Addr).toNat % 0x800 ≠ (0x07FF : Addr).toNat % 0x800 :=
  ⟨by decide, ⟨_, rfl⟩, by decide, by decide⟩

/-- The port numbers at both ends of the window: statements of ports 0 to 7 have witnesses at 0x2000 to 0x2007 and at
0x3FF8 to 0x3FFF. -/
theorem test_witness_ports :
    ((List.range 8).all fun k => decide (0x2000 ≤ (0x2000 + k) ∧ 0x3FF8 + k < 0x4000 ∧
      (0x2000 + k) % 8 = k ∧ (0x3FF8 + k) % 8 = k)) = true := by decide

/-- Both states of both toggles. -/
theorem test_witness_AddressLatchAdds :
    (0x3FFE : Addr).toNat % 8 = 6 ∧ testMachine.ppu.addrToggle = false ∧
    { testMachine.ppu with addrToggle := true }.addrToggle = true := by decide

/-- The ends of the four ranges of the latched address, each in one clause alone, and the largest legal colour. -/
theorem test_witness_DataPortRoutes :
    [0x0000, 0x1FFF, 0x2000, 0x2FFF, 0x3000, 0x3EFF].map vramTarget =
      [.pattern 0, .pattern 0x1FFF, .nametable 0, .nametable 0xFFF, .nametable 0, .nametable 0xEFF] ∧
    [0x3F00, 0x3F10, 0x3F0F, 0xFFFF].map vramTarget = [.palette 0, .palette 0, .palette 0x0F, .palette 0x1F] ∧
    invalidPaletteByte 0x3F00 0x3F = false ∧ invalidPaletteByte 0x3F00 0x40 = true ∧
    invalidPaletteByte 0x3EFF 0x40 = false := by decide

theorem test_witness_StatusReadClears :
    ∃ t, busRead 0x3FFA (testAt 0 0 0x00 0xC0) = .next (0xC0, t) ∧ t.ppu.status = 0x40 := ⟨_, rfl, by decide⟩

theorem test_witness_PortReadsAnswer :
    busRead 0x2004 testMachine = .next (0x00, testMachine) ∧
    busRead 0x3FFF testMachine = .fault (.ppuDataReadRefused 0x3FFF) := ⟨rfl, rfl⟩

/-- V202 and V203: the addresses, and what the reads give. -/
theorem test_witness_IncOfPortReadsThenWrites :
    (0x2004 : Addr).toNat % 8 = 4 ∧ (0x3FFA : Addr).toNat % 8 = 2 ∧
    testNext (exec (.inc (.abs 0x2004)) testMachine) = true ∧
    testNext (exec (.inc (.abs 0x3FFA)) testMachine) = true := by decide

/-- The last RAM page and the first page outside RAM. -/
theorem test_witness_DmaCopiesPage :
    (0x07 : Byte).toNat < 8 ∧ testMachine.ppu.oam.wf 256 = true ∧ 8 ≤ (0x08 : Byte).toNat := by decide

/-- The last dot of a frame. -/
theorem test_witness_PpuPositionCountsDots :
    (testAt 261 340 0x00 0x00).ppu.cycle = 89341 % 341 ∧
    (testAt 261 340 0x00 0x00).ppu.scanline = 89341 / 341 % 262 := by decide

/-- Scanlines 239, 240, 241, 260 and 261: each in one clause alone. -/
theorem test_witness_VblankSetsAndClears :
    [239, 240, 241, 260, 261].map (fun n => (scanlineAdvance (testAt n 341 0x80 0x00)).ppu.status) =
      [0x00, 0x80, 0x00, 0x00, 0x00] ∧ ([239, 240, 241, 260, 261].all fun n => decide (n < 262)) = true := by decide

theorem test_witness_FrameWrapEmits : (testAt 261 341 0x00 0x00).ppu.scanline = 261 := rfl

/-- Scanlines 7, 239 and 247 and the largest scroll that builds a row, with the smallest that does not. -/
theorem test_witness_RowAppendsTiles :
    [7, 6, 239, 247].map (fun n => decide ((n + 1) % 8 = 0 ∧ n + 1 ≤ 240)) = [true, false, true, false] ∧
    (0xF0 : Byte).toNat ≤ 240 ∧ ¬ (0xF1 : Byte).toNat ≤ 240 := by decide

/-- Both rules, at the scanlines where their clauses meet. -/
theorem test_witness_SpriteZeroHit :
    (testAt 239 341 0x00 0x40).env.sprite0Hit = .never ∧
    { testAt 239 341 0x00 0x40 with env := { testMachine.env with sprite0Hit := .any } }.env.sprite0Hit = .any ∧
    (239 < 240 ∧ 240 ≤ 240 ∧ 240 ≠ 261 ∧ 240 ≤ 260 ∧ 260 ≠ 261 ∧ 261 < 262) := by decide

theorem test_witness_CycleCounts :
    (Instr.lda (.mem (.zp 0xFF))).wellFormed = true ∧ (Instr.lda (.mem (.zp 0xFF))).opcode = some 0xA5 ∧
    memForm (.lda (.mem (.zp 0xFF))) = some (.zp 0xFF) ∧ (Instr.cpx (.mem (.abs 0xFFFF))).wellFormed = true ∧
    (Instr.nopU 0x5C (.mem (.absX 0x00FF))).wellFormed = true ∧ (Instr.nopU 0xFA .implied).wellFormed = true ∧
    (Instr.sax (.indX 0xFF)).wellFormed = true ∧ (Instr.rra (.absY 0xFFFF)).wellFormed = true := by decide

/-- The "Cycles" lines: 4 and 5 on both sides of a page for `*NOP $FF,X`, 2 in immediate mode, 6 for the absolute
read-modify-write; and another table is the one that is charged. -/
theorem test_cycles :
    [Instr.nopU 0x7C (.mem (.absX 0x00FF)), .nopU 0x7C (.mem (.absX 0x0000)), .nopU 0xE2 (.imm 0x00),
      .inc (.abs 0x0000)].map (fun i => countOf .standard i { testMachine with x := 0x01 }) = [5, 4, 2, 6] ∧
    cyclesOf .nop { testMachine with env := { testMachine.env with
      timing := { base := List.replicate 256 9, penalty := [], dmaStall := 0 } } } = 9 := by decide

/-- What answers a read: every port but the data port, both ends of RAM and ROM, the two device registers; for the
statements of LDA to *RRA that read. -/
theorem test_witness_readable :
    ([0x0000, 0x1FFF, 0x2000, 0x2006, 0x3FFE, 0x4015, 0x4016, 0x8000, 0xFFFF].all readable) = true ∧
    ([0x2007, 0x3FFF, 0x4000, 0x4014, 0x4017, 0x7FFF].any readable) = false ∧
    operandReadable (.imm 0xFF) testMachine = true ∧ operandReadable (.mem (.indY 0x10)) testMachine = true ∧
    readable (effAddr (.absX 0xFFFF) testMachine) = true := by decide

/-- What answers a write: the data port too where the byte is a colour or the address is below the palette. -/
theorem test_witness_StoresComplete :
    ([0x0000, 0x1FFF, 0x2000, 0x3FFF, 0x4000, 0x4014, 0x401F, 0x8000, 0xFFFF].all
      fun a => writable a 0xFF testMachine) = true ∧
    ([0x4020, 0x7FFF].any fun a => writable a 0xFF testMachine) = false ∧
    (let s := { testMachine with ppu := { testMachine.ppu with vramAddr := 0x3F00 } }
     writable 0x2007 0x3F s = true ∧ writable 0x2007 0x40 s = false) := by decide

theorem test_witness_stack : { testRam [0x48] with sp := 0x01 }.ram.wf 0x800 = true := by decide

/-- A pointer at the end of a page whose two bytes answer, and one that ends at the data port. -/
theorem test_witness_JumpsComplete :
    jumpReadable (.ind 0x02FF) = true ∧ jumpReadable (.ind 0x1FFF) = true ∧ jumpReadable (.ind 0xFFFF) = true ∧
    jumpReadable (.ind 0x2006) = false ∧ (testRam [0x20]).ram.wf 0x800 = true ∧
    testNext (exec (.jsr 0x8010) (testRam [0x20])) = true := by decide

theorem test_witness_UndocumentedNopsComplete :
    decode [0x1C, 0xFF, 0x02] = .ok (.nopU 0x1C (.mem (.absX 0x02FF)), []) := rfl

/-- One instruction of each frame completes: a port read, a port store, and both on one address. -/
theorem test_witness_frames :
    testNext (exec (.lda (.mem (.abs 0x2002))) testMachine) = true ∧
    testNext (exec (.sta (.abs 0x2007)) testMachine) = true ∧ testNext (exec (.sax (.indX 0x10)) testMachine) = true ∧
    testNext (exec (.rra (.indY 0xFF)) testMachine) = true ∧
    testNext (exec (.sty (.abs 0x3FFA)) testMachine) = true ∧ testNext (exec (.isb (.abs 0x2002)) testMachine) = true ∧
    onPort 0x2002 2 ∧ onPort 0x3FFA 2 ∧ memForm (.lda (.imm 0x00)) = none := by unfold onPort; decide

/-- An IRQ that stays pending through a step under `never`, since P.I masks it; and both rules of the move. -/
theorem test_witness_StepNeverWrites :
    (match step { testMachine with irq := true } with
      | .next t => t.irq
      | _ => false) = true ∧ testMachine.env.externalIrq = .never ∧
    { testMachine with env := { testMachine.env with externalIrq := .any }, stepped := true }.env.externalIrq = .any ∧
    { testMachine with env := { testMachine.env with externalIrq := .any }, stepped := true }.stepped = true ∧
    testMachine.stepped = false := by decide

theorem test_witness_WarmResetWritesTwo : testMachine.env.p0 = State.reset.env.p0 := rfl

/-- The dot before scanline 241, NMI enabled, under the invariant; the step ends with the NMI pending. -/
theorem test_witness_invariant :
    { testAt 240 340 0x80 0x40 with p := Flags.ofByte 0x20 }.Inv ∧
    { testAt 240 340 0x80 0x40 with p := Flags.ofByte 0x20 }.env.timing = .standard ∧
    ∃ t, step { testAt 240 340 0x80 0x40 with p := Flags.ofByte 0x20 } = .next t ∧ t.nmi = true :=
  ⟨⟨⟨by decide, by decide, by decide, by decide, by decide⟩, by decide, by decide, by decide, by decide, by decide,
    by decide, by unfold Ppu.wholeRows; decide⟩, rfl, ⟨_, rfl, by decide⟩⟩

/-- A power-on with something in every memory, at its last address. -/
theorem test_witness_ResetMeetsInvariant :
    { blankPowerOn with
      ram := [(0x7FF, 1)], vram := [(0xFFF, 1)], palette := [(0x1F, 0x3F)], oam := [(0xFF, 1)]
      chr := [(0x1FFF, 1)] : PowerOn }.Legal :=
  ⟨by decide, by decide, by decide, by decide, by decide, by decide, by decide⟩

end Sys2Proof.Tests
end

/-! The stores of the PPU, its renderer, and the invariant of the machine (10_state). -/

namespace Sys2Proof.Machine

/-! What a store and an address computation can reach. -/

/-- A write lists no cell but the one written. -/
theorem Memory.mem_write {a : Nat} {v : Byte} {c : Host.Cell} :
    ∀ {m : Memory}, c ∈ m.write a v → c = (a, v) ∨ c ∈ m
  | [], h => by
    unfold Memory.write Memory.cell at h
    split at h <;> simp_all
  | (b, w) :: m, h => by
    unfold Memory.write Memory.cell at h
    split_ifs at h
    · exact .inr h
    · simpa using h
    · exact .inr (List.mem_cons_of_mem _ h)
    · exact (List.mem_cons.1 h).imp_right (List.mem_cons_of_mem _)
    · rcases List.mem_cons.1 h with rfl | h
      · exact .inr (List.mem_cons_self ..)
      · exact (Memory.mem_write h).imp_right (List.mem_cons_of_mem _)

/-- Storing a colour index keeps the palette one of colour indices. -/
theorem Memory.legalColours_write {m : Memory} {a : Nat} {v : Byte} (hv : v.toNat ≤ 0x3F)
    (h : m.legalColours = true) : (m.write a v).legalColours = true := by
  simp only [Memory.legalColours, List.all_eq_true, decide_eq_true_eq] at h ⊢
  intro c hc
  rcases Memory.mem_write hc with rfl | hc
  · exact hv
  · exact h c hc

theorem paletteIndex_lt (a : Addr) : paletteIndex a < 32 := by
  unfold paletteIndex
  dsimp only
  split <;> omega

/-- The four sprite mirrors are never the entry that a palette address selects (47_ppu_ports R252). -/
theorem paletteIndex_ne_mirror (a : Addr) {i : Nat} (hi : i ∈ [0x10, 0x14, 0x18, 0x1C]) : paletteIndex a ≠ i := by
  unfold paletteIndex
  dsimp only
  simp only [List.mem_cons, List.not_mem_nil, or_false] at hi
  split <;> omega

theorem ntRemap_lt (m : Mirroring) {off : Nat} (h : off < 0x1000) : ntRemap m off < 0x1000 := by
  cases m <;> simp only [ntRemap] <;> omega

/-! The port operations: what each leaves alone. -/

/-- A port write changes no counter, no status bit and no render list. -/
theorem Ppu.writePort_renderer (m : Mirroring) (q : Ppu) (p : Port) (v : Byte) :
    (q.writePort m p v).cycle = q.cycle ∧ (q.writePort m p v).scanline = q.scanline ∧
      (q.writePort m p v).status = q.status ∧ (q.writePort m p v).background = q.background ∧
      (q.writePort m p v).sprites = q.sprites := by
  cases p with
  | scroll => simp only [Ppu.writePort, Ppu.writeScroll]; split <;> simp
  | vramAddr => simp only [Ppu.writePort, Ppu.writeVramAddr]; split <;> simp
  | data => simp only [Ppu.writePort, Ppu.stepVramAddr, Ppu.storeData]; split <;> simp
  | ctrl | mask | status | oamAddr | oamData => simp [Ppu.writePort, Ppu.writeOamData]

/-- A DMA copy changes nothing of the PPU but its sprite RAM. -/
theorem Ppu.transferFrom_eq : ∀ (vs : List Byte) (q : Ppu) (i : Nat),
    q.transferFrom i vs = { q with oam := (q.transferFrom i vs).oam }
  | [], _, _ => rfl
  | v :: vs, q, i => by
    have h := Ppu.transferFrom_eq vs (q.transferSprite i v) (i + 1)
    unfold Ppu.transferFrom
    rw [h]
    rfl

/-- A DMA copy that stays inside sprite RAM keeps its canonical form. -/
theorem Ppu.transferFrom_wf : ∀ (vs : List Byte) (q : Ppu) (i : Nat), i + vs.length ≤ 256 → q.oam.wf 256 = true →
    (q.transferFrom i vs).oam.wf 256 = true
  | [], _, _, _, h => h
  | v :: vs, q, i, hi, h => by
    have hlen : i + 1 + vs.length ≤ 256 := by simpa [Nat.add_assoc, Nat.add_comm 1] using hi
    exact Ppu.transferFrom_wf vs (q.transferSprite i v) (i + 1) hlen (Memory.write_wf (by omega) h)

/-! The two halves of the PPU's part of the invariant. -/

/-- The PPU's memories are canonical, inside their sizes, and the palette holds colour indices (10_state R47 to R50). -/
structure Ppu.StoresOk (q : Ppu) : Prop where
  vram    : q.vram.wf 0x1000 = true
  palette : q.palette.wf 32 = true
  oam     : q.oam.wf 256 = true
  chr     : q.chr.wf 0x2000 = true
  colours : q.palette.legalColours = true

/-- What the invariant says of the renderer between two scanline advances, whatever the dot (10_state R40, R43, R51). -/
structure Ppu.RenderOk (q : Ppu) : Prop where
  scanline : q.scanline < 262
  status   : q.status &&& 0x3F = 0
  sprites  : q.sprites.length = 64
  rows     : q.wholeRows

/-- The invariant, with the PPU's part in its two halves. -/
theorem State.inv_iff (s : State) : s.Inv ↔
    s.ram.wf 0x800 = true ∧ s.p.r = true ∧ s.ppu.StoresOk ∧ s.ppu.cycle < 341 ∧ s.ppu.RenderOk := by
  constructor
  · rintro ⟨⟨hram, hvram, hpal, hoam, hchr⟩, hcol, hr, hcyc, hline, hst, hspr, hrows⟩
    exact ⟨hram, hr, ⟨hvram, hpal, hoam, hchr, hcol⟩, hcyc, ⟨hline, hst, hspr, hrows⟩⟩
  · rintro ⟨hram, hr, ⟨hvram, hpal, hoam, hchr, hcol⟩, hcyc, ⟨hline, hst, hspr, hrows⟩⟩
    exact ⟨⟨hram, hvram, hpal, hoam, hchr⟩, hcol, hr, hcyc, hline, hst, hspr, hrows⟩

/-- The byte of a port-7 write lands inside the memory it is routed to (47_ppu_ports R249 to R253). -/
theorem Ppu.StoresOk.storeData {q : Ppu} (h : q.StoresOk) (m : Mirroring) {v : Byte}
    (hv : invalidPaletteByte q.vramAddr v = false) : (q.storeData m v).StoresOk := by
  have ha := q.vramAddr.isLt
  simp only [invalidPaletteByte, decide_eq_false_iff_not, not_and, not_lt] at hv
  unfold Ppu.storeData vramTarget
  split_ifs with h1 h2 h3
  · exact { h with
      palette := Memory.write_wf (paletteIndex_lt _) h.palette
      colours := Memory.legalColours_write (hv h1) h.colours }
  · exact { h with vram := Memory.write_wf (ntRemap_lt m (by omega)) h.vram }
  · exact { h with vram := Memory.write_wf (ntRemap_lt m (by omega)) h.vram }
  · exact { h with chr := Memory.write_wf (by omega) h.chr }

/-- A port write that does not fault keeps the PPU's memories legal. -/
theorem Ppu.StoresOk.writePort {q : Ppu} (h : q.StoresOk) (m : Mirroring) {p : Port} {v : Byte}
    (hv : p = .data → invalidPaletteByte q.vramAddr v = false) : (q.writePort m p v).StoresOk := by
  cases p with
  | oamData => exact { h with oam := Memory.write_wf q.oamAddr.isLt h.oam }
  | scroll => simp only [Ppu.writePort, Ppu.writeScroll]; split <;> exact { h with }
  | vramAddr => simp only [Ppu.writePort, Ppu.writeVramAddr]; split <;> exact { h with }
  | data => exact { h.storeData m (hv rfl) with }
  | ctrl | mask | status | oamAddr => exact { h with }

/-- The renderer's half of the invariant, but for the status bits, speaks of three fields only. -/
theorem Ppu.RenderOk.of_same {q r : Ppu} (h : q.RenderOk) (hline : r.scanline = q.scanline)
    (hst : r.status &&& 0x3F = 0) (hbg : r.background = q.background) (hspr : r.sprites = q.sprites) : r.RenderOk where
  scanline := hline ▸ h.scanline
  status := hst
  sprites := hspr ▸ h.sprites
  rows := by unfold Ppu.wholeRows; rw [hline, hbg]; exact h.rows

/-! The CPU's part of a step. -/

/-- The invariant speaks of RAM, the reserved flag and the PPU only. -/
theorem State.Inv.of_same {s t : State} (h : s.Inv) (hram : t.ram = s.ram) (hr : t.p.r = s.p.r) (hppu : t.ppu = s.ppu) :
    t.Inv := by
  rw [State.inv_iff] at h ⊢
  rwa [hram, hr, hppu]

/-- A PPU that meets its part of the invariant can stand in for another one. -/
theorem State.Inv.setPpu {s : State} (h : s.Inv) {q : Ppu} (hst : q.StoresOk) (hcyc : q.cycle < 341)
    (hren : q.RenderOk) : (s.setPpu q).Inv :=
  (State.inv_iff _).2 ⟨h.memories.ram, h.reserved, hst, hcyc, hren⟩

theorem pageBytes_length (ram : Memory) (page : Byte) : (pageBytes ram page).length = 256 := by
  simp [pageBytes]

/-- A DMA copy keeps the invariant: its 256 bytes fill sprite RAM and no more. -/
theorem State.Inv.dmaCopy {s : State} (h : s.Inv) :
    ((s.setPpu (s.ppu.transferFrom 0 (pageBytes s.ram s.dmaPage))).setDmaPending false).Inv := by
  have hlen := pageBytes_length s.ram s.dmaPage
  generalize pageBytes s.ram s.dmaPage = vs at hlen ⊢
  obtain ⟨_, _, hst, hcyc, hren⟩ := (State.inv_iff s).1 h
  have hwf := Ppu.transferFrom_wf vs s.ppu 0 (by omega) hst.oam
  have hppu : (s.setPpu (s.ppu.transferFrom 0 vs)).Inv := by
    rw [Ppu.transferFrom_eq]
    exact h.setPpu { hst with oam := hwf } hcyc { hren with }
  exact hppu.of_same rfl rfl rfl

/-- A read of the status port keeps the invariant. -/
theorem State.Inv.statusRead {s : State} (h : s.Inv) : (s.setPpu s.ppu.afterStatusRead).Inv := by
  obtain ⟨_, _, hst, hcyc, hren⟩ := (State.inv_iff s).1 h
  have hstatus : s.ppu.afterStatusRead.status &&& 0x3F = 0 := by
    rw [Ppu.afterStatusRead, BitVec.and_assoc]
    exact hren.status
  exact h.setPpu { hst with } hcyc (hren.of_same rfl hstatus rfl rfl)

/-- A port write that does not fault keeps the invariant. -/
theorem State.Inv.portWrite {s : State} (h : s.Inv) {p : Port} {v : Byte}
    (hv : p = .data → invalidPaletteByte s.ppu.vramAddr v = false) :
    (s.setPpu (s.ppu.writePort s.cart.mirroring p v)).Inv := by
  obtain ⟨_, _, hst, hcyc, hren⟩ := (State.inv_iff s).1 h
  obtain ⟨ec, el, es, eb, esp⟩ := Ppu.writePort_renderer s.cart.mirroring s.ppu p v
  exact h.setPpu (hst.writePort _ hv) (ec.trans_lt hcyc) (hren.of_same el (by rw [es]; exact hren.status) eb esp)

/-- Every elementary update of the CPU's part of a step keeps the invariant. -/
theorem State.Inv.cpuClosed : CpuClosed State.Inv where
  a _ _ h := h.of_same rfl rfl rfl
  x _ _ h := h.of_same rfl rfl rfl
  y _ _ h := h.of_same rfl rfl rfl
  sp _ _ h := h.of_same rfl rfl rfl
  pc _ _ h := h.of_same rfl rfl rfl
  p s _ hr h :=
    have ⟨hram, hr0, hppu⟩ := (State.inv_iff s).1 h
    (State.inv_iff _).2 ⟨hram, hr.elim (·.trans hr0) id, hppu⟩
  ram _ _ _ hj h := { h with memories := { h.memories with ram := Memory.write_wf hj h.memories.ram } }
  drawn _ h := h.of_same rfl rfl rfl
  emit _ _ _ h := h.of_same rfl rfl rfl
  statusRead _ h := h.statusRead
  portWrite _ _ _ hv h := h.portWrite hv
  dmaWrite _ _ h := h.of_same rfl rfl rfl
  dmaCopy _ h := h.dmaCopy
  nmi _ h := h.of_same rfl rfl rfl
  irq _ h := h.of_same rfl rfl rfl
  cycles _ _ h := h.of_same rfl rfl rfl
  stepped _ h := h.of_same rfl rfl rfl

/-! The PPU's part of a step. -/

/-- Setting bits above the six unused ones leaves these 0 (10_state R43). -/
theorem unused_or {x b : Byte} (hx : x &&& 0x3F = 0) (hb : b &&& 0x3F = 0) : (x ||| b) &&& 0x3F = 0 := by
  rw [BitVec.and_or_distrib_right, hx, hb]
  rfl

theorem hitBit_unused (d : Nat) : hitBit d &&& 0x3F = 0 := by
  unfold hitBit
  split <;> rfl

/-- The sprite-0 step sets no unused status bit and leaves the scanline and the render lists as they are. -/
theorem sprite0HitStep_renderer {s : State} (h : s.ppu.status &&& 0x3F = 0) :
    (sprite0HitStep s).ppu.status &&& 0x3F = 0 ∧ (sprite0HitStep s).ppu.scanline = s.ppu.scanline ∧
      (sprite0HitStep s).ppu.background = s.ppu.background ∧ (sprite0HitStep s).ppu.sprites = s.ppu.sprites := by
  rcases sprite0HitStep_cases s with e | ⟨_, _, e⟩ <;> rw [e]
  · exact ⟨h, rfl, rfl, rfl⟩
  · exact ⟨unused_or h (hitBit_unused _), rfl, rfl, rfl⟩

/-- The row step leaves everything of the renderer but the background as it is. -/
theorem rowStep_renderer (s : State) : (rowStep s).ppu.status = s.ppu.status ∧
    (rowStep s).ppu.scanline = s.ppu.scanline ∧ (rowStep s).ppu.sprites = s.ppu.sprites := by
  rcases rowStep_cases s with ⟨_, e⟩ | ⟨_, e⟩ <;> rw [e] <;> exact ⟨rfl, rfl, rfl⟩

/-- After the row step of scanline `n + 1` there are whole rows for it, where there were for scanline `n`. -/
theorem rowStep_wholeRows {s : State} {n : Nat} (hn : s.ppu.scanline = n + 1)
    (hmod : s.ppu.background.length % 32 = 0) (hle : s.ppu.background.length ≤ 32 * min (n / 8) 30) :
    (rowStep s).ppu.wholeRows := by
  rcases rowStep_cases s with ⟨_, e⟩ | ⟨hdue, e⟩ <;> rw [e] <;> unfold Ppu.wholeRows
  · rw [hn]
    exact ⟨hmod, by omega⟩
  · simp only [Ppu.rowDue, decide_eq_true_eq] at hdue
    simp only [State.setPpu_ppu, Ppu.buildRow, List.length_append, List.length_map, List.length_range]
    exact ⟨by omega, by omega⟩

/-- The start of vblank sets bit 7 of the status and leaves the rest of the PPU as it is. -/
@[simp] theorem vblankStart_ppu (s : State) : (vblankStart s).ppu = s.ppu.inVblank := by
  unfold vblankStart
  split <;> rfl

/-- The boundary step ends with the renderer's half of the invariant, on every scanline up to the wrap. -/
theorem boundaryStep_renderOk {s : State} (hline : s.ppu.scanline ≤ 262) (hst : s.ppu.status &&& 0x3F = 0)
    (hspr : s.ppu.sprites.length = 64) (hrows : s.ppu.wholeRows) : (boundaryStep s).ppu.RenderOk := by
  rcases boundaryStep_cases s with ⟨h241, e⟩ | ⟨_, e⟩ | ⟨_, h262, e⟩ <;> rw [e]
  · rw [vblankStart_ppu]
    have h : s.ppu.scanline < 262 := by omega
    exact ⟨h, unused_or hst rfl, hspr, hrows⟩
  · have hwrap : s.ppu.wrapped.status &&& 0x3F = 0 := by
      rw [Ppu.wrapped, BitVec.and_assoc]
      exact hst
    exact ⟨Nat.zero_lt_succ _, hwrap, by simp [frameWrap, Ppu.wrapped, evaluateSprites],
      by simp [frameWrap, Ppu.wrapped, Ppu.wholeRows]⟩
  · exact ⟨by omega, hst, hspr, hrows⟩

/-- A scanline advance keeps the renderer's half of the invariant (48_ppu_rendering R271 to R279). -/
theorem scanlineAdvance_renderOk {s : State} (h : s.ppu.RenderOk) : (scanlineAdvance s).ppu.RenderOk := by
  obtain ⟨hline, hst, hspr, hmod, hle⟩ := h
  have hnext : (s.setPpu s.ppu.nextScanline).ppu.status = s.ppu.status ∧
      (s.setPpu s.ppu.nextScanline).ppu.scanline = s.ppu.scanline + 1 ∧
      (s.setPpu s.ppu.nextScanline).ppu.background = s.ppu.background ∧
      (s.setPpu s.ppu.nextScanline).ppu.sprites = s.ppu.sprites := by simp [Ppu.nextScanline]
  unfold scanlineAdvance scanlineEvents
  generalize s.setPpu s.ppu.nextScanline = u at hnext ⊢
  obtain ⟨ust, uline, ubg, uspr⟩ := hnext
  obtain ⟨vst, vline, vbg, vspr⟩ := sprite0HitStep_renderer (s := u) (by rw [ust]; exact hst)
  obtain ⟨wst, wline, wspr⟩ := rowStep_renderer (sprite0HitStep u)
  apply boundaryStep_renderOk
  · rw [wline, vline, uline]
    omega
  · rw [wst]
    exact vst
  · rw [wspr, vspr, uspr]
    exact hspr
  · exact rowStep_wholeRows (vline.trans uline) (by rw [vbg, ubg]; exact hmod) (by rw [vbg, ubg]; exact hle)

/-- `PPU.run` keeps the invariant. -/
theorem ppuRun_inv (n : Nat) {s : State} (h : s.Inv) : (ppuRun n s).Inv := by
  obtain ⟨hram, hr, hst, _, hren⟩ := (State.inv_iff s).1 h
  have hren' : (ppuRun n s).ppu.RenderOk :=
    ppuLoop_induct (P := fun t => t.ppu.RenderOk) (fun _ _ ht => scanlineAdvance_renderOk ht) _ _ { hren with }
  have hk : RenderKeeps s (ppuRun n s) := ppuRun_keeps n s
  refine (State.inv_iff _).2 ⟨?_, ?_, ?_, ppuRun_cycle n s, hren'⟩ <;> rw [hk]
  · exact hram
  · exact hr
  · exact { hst with }

theorem environmentMove_inv {s : State} (h : s.Inv) : (environmentMove s).Inv := by
  rw [environmentMove_eq]
  exact h.of_same rfl rfl rfl

/-- Settles O55: the invariant is closed under every update of the CPU's part of a step, and `PPU.run` keeps it. -/
theorem stepKeepsInvariant : Obligations.StepKeepsInvariant := by
  intro s t hs hstep
  obtain ⟨n, u, hu, rfl⟩ := State.Inv.cpuClosed.step hstep (environmentMove_inv hs)
  exact ppuRun_inv n hu

/-- Settles O56: the counters and lists of power-on are within their bounds, and the memories are the legal ones given. -/
theorem resetMeetsInvariant : Obligations.ResetMeetsInvariant := by
  have hreset : ∀ w : PowerOn, w.Legal → w.reset.Inv := by
    rintro w ⟨hram, hvram, hpal, hoam, hchr, hcol, hpat⟩
    refine (State.inv_iff _).2 ⟨hram, hpat, ⟨hvram, hpal, hoam, hchr, hcol⟩, Nat.zero_lt_succ _, ?_⟩
    constructor <;> simp [PowerOn.reset, PowerOn.powered, PowerOn.ppu, evaluateSprites, Ppu.wholeRows]
  have hblank : blankPowerOn.Legal := ⟨rfl, rfl, rfl, rfl, rfl, rfl, rfl⟩
  exact ⟨hreset, hblank, hreset _ hblank⟩

end Sys2Proof.Machine

/-! What no step writes, and when the NMI is pending after a step (10_state R35, R36). -/

namespace Sys2Proof.Machine

/-! The interrupt flags at the poll, and the fixed parameters. -/

/-- What the CPU's part of a step never writes: the cartridge, the parameters, the palette's sprite mirrors; and it asserts
neither interrupt. -/
structure CpuKeeps (s u : State) : Prop where
  cart    : u.cart = s.cart
  env     : u.env = s.env
  mirrors : ∀ i ∈ [0x10, 0x14, 0x18, 0x1C], u.ppu.palette.read i = s.ppu.palette.read i
  irq     : u.irq = true → s.irq = true
  nmi     : u.nmi = true → s.nmi = true

theorem CpuKeeps.refl (s : State) : CpuKeeps s s := ⟨rfl, rfl, fun _ _ => rfl, id, id⟩

/-- A port write reaches no sprite mirror of the palette (47_ppu_ports R252). -/
theorem Ppu.writePort_mirrors (m : Mirroring) (q : Ppu) (p : Port) (v : Byte) {i : Nat}
    (hi : i ∈ [0x10, 0x14, 0x18, 0x1C]) : (q.writePort m p v).palette.read i = q.palette.read i := by
  cases p with
  | scroll => simp only [Ppu.writePort, Ppu.writeScroll]; split <;> rfl
  | vramAddr => simp only [Ppu.writePort, Ppu.writeVramAddr]; split <;> rfl
  | data =>
    simp only [Ppu.writePort, Ppu.stepVramAddr, Ppu.storeData, vramTarget]
    split_ifs
    · exact Memory.read_write_ne (paletteIndex_ne_mirror _ hi)
    all_goals rfl
  | ctrl | mask | status | oamAddr | oamData => rfl

/-- Every elementary update of the CPU's part of a step keeps them. -/
theorem CpuKeeps.cpuClosed (s : State) : CpuClosed (CpuKeeps s) where
  a _ _ h := { h with }
  x _ _ h := { h with }
  y _ _ h := { h with }
  sp _ _ h := { h with }
  pc _ _ h := { h with }
  p _ _ _ h := { h with }
  ram _ _ _ _ h := { h with }
  drawn _ h := { h with }
  emit _ _ _ h := { h with }
  statusRead _ h := { h with }
  portWrite _ p v _ h :=
    { h with mirrors := fun i hi => (Ppu.writePort_mirrors _ _ p v hi).trans (h.mirrors i hi) }
  dmaWrite _ _ h := { h with }
  dmaCopy u h := by
    generalize pageBytes u.ram u.dmaPage = vs
    rw [Ppu.transferFrom_eq]
    exact { h with }
  nmi _ h := { h with nmi := by simp }
  irq _ h := { h with irq := by simp }
  cycles _ _ h := { h with }
  stepped _ h := { h with }

/-- The environment's move writes nothing that the CPU's part of a step keeps, but the IRQ. -/
theorem environmentMove_keeps (s : State) : (environmentMove s).cart = s.cart ∧ (environmentMove s).env = s.env ∧
    (environmentMove s).ppu = s.ppu := by
  rw [environmentMove_eq]
  exact ⟨rfl, rfl, rfl⟩

/-- The poll leaves no NMI pending. -/
theorem pollInterrupts_nmi (s : State) : (pollInterrupts s).nmi = false := by
  rcases pollInterrupts_cases s with ⟨_, e⟩ | ⟨h, _, _, e⟩ | ⟨h, _, e⟩ <;> rw [e]
  · rfl
  · simpa [serviceIrq, deassertIrq, takeInterrupt_eq] using h
  · exact h

/-- The poll does not touch the count of cycles. -/
theorem pollInterrupts_cycles (s : State) : (pollInterrupts s).cycles = s.cycles := by
  rcases pollInterrupts_cases s with ⟨_, e⟩ | ⟨_, _, _, e⟩ | ⟨_, _, e⟩ <;> rw [e]
  · simp [serviceNmi, deassertNmi, takeInterrupt_eq]
  · simp [serviceIrq, deassertIrq, takeInterrupt_eq]

/-! How many dots a step gives the PPU. -/

/-- The part of a step before the fetch is charged the DMA stall at most. -/
theorem beginStep_cycles_le {s t : State} (h : beginStep s = .next t) : t.cycles ≤ s.env.timing.dmaStall := by
  unfold beginStep at h
  split at h
  · cases h
  · obtain ⟨u, hu, ht⟩ := Res.andThen_eq_next.1 h
    cases ht
    obtain ⟨-, henv, -⟩ := environmentMove_keeps s
    rw [pollInterrupts_cycles, ← henv]
    unfold dmaStep at hu
    split at hu
    · obtain ⟨_, _, hw⟩ := Res.andThen_eq_next.1 hu
      cases hw
      exact le_rfl
    · cases hu
      exact Nat.zero_le _

/-- No NMI is pending once the poll is done. -/
theorem beginStep_nmi {s t : State} (h : beginStep s = .next t) : t.nmi = false := by
  unfold beginStep at h
  split at h
  · cases h
  · obtain ⟨u, _, ht⟩ := Res.andThen_eq_next.1 h
    cases ht
    exact pollInterrupts_nmi u

theorem fetchByte_cycles {s t : State} {v : Byte} (h : fetchByte s = .next (v, t)) : t.cycles = s.cycles := by
  obtain ⟨u, hu, rfl⟩ := fetchByte_next h
  obtain ⟨-, -, -, -, -, -, -, -, -, -, -, -, -, -, hc⟩ := busRead_kept hu
  exact hc

theorem fetchOperands_cycles {n : Nat} {s t : State} {bs : Byte × Byte} (h : fetchOperands n s = .next (bs, t)) :
    t.cycles = s.cycles := by
  unfold fetchOperands at h
  split at h
  · cases h; rfl
  · obtain ⟨⟨b, u⟩, hu, ht⟩ := Res.andThen_eq_next.1 h
    cases ht
    exact fetchByte_cycles hu
  · obtain ⟨⟨b, u⟩, hu, ht⟩ := Res.andThen_eq_next.1 h
    obtain ⟨⟨b', u'⟩, hu', ht⟩ := Res.andThen_eq_next.1 ht
    cases ht
    exact (fetchByte_cycles hu').trans (fetchByte_cycles hu)

/-- The fetch does not touch the count of cycles. -/
theorem fetchInstr_cycles {s t : State} {i : Instr} (h : fetchInstr s = .next (i, t)) : t.cycles = s.cycles := by
  obtain ⟨⟨op, u⟩, hu, h⟩ := Res.andThen_eq_next.1 h
  obtain ⟨⟨bs, w⟩, hw, ht⟩ := Res.andThen_eq_next.1 h
  cases ht
  exact (fetchOperands_cycles hw).trans (fetchByte_cycles hu)

/-- No row of the opcode table has more than eight base cycles (30_encoding R121). -/
theorem baseCycles_le (op : Byte) : baseCycles op ≤ 8 := by revert op; decide

theorem pageCycles_le (t : Timing) (op : Byte) (i : Instr) (s : State) : pageCycles t op i s ≤ 1 := by
  unfold pageCycles
  split
  · split <;> omega
  · omega

theorem branchCycles_le (i : Instr) (s : State) : branchCycles i s ≤ 2 := by
  unfold branchCycles
  split
  · split <;> omega
  · omega
  · omega

/-- At the default timing an instruction takes at most eleven cycles. -/
theorem countOf_standard_le (i : Instr) (s : State) : countOf .standard i s ≤ 11 := by
  unfold countOf
  split
  · next op _ =>
    rw [Timing.standard_baseOf]
    have hb := baseCycles_le op
    have hp := pageCycles_le .standard op i s
    have hbr := branchCycles_le i s
    omega
  · omega

/-! The NMI in the run loop. -/

/-- The first two steps of `ScanlineEvents()` leave the NMI as it is and clear no vblank bit. -/
theorem rowStep_sprite0HitStep_nmi (s : State) : (rowStep (sprite0HitStep s)).nmi = s.nmi ∧
    (s.ppu.status.getLsbD 7 = true → (rowStep (sprite0HitStep s)).ppu.status.getLsbD 7 = true) := by
  have hrow : (rowStep (sprite0HitStep s)).nmi = (sprite0HitStep s).nmi := by
    rcases rowStep_cases (sprite0HitStep s) with ⟨_, e⟩ | ⟨_, e⟩ <;> rw [e]
    rfl
  rw [hrow, (rowStep_renderer _).1]
  rcases sprite0HitStep_cases s with e | ⟨_, _, e⟩ <;> rw [e]
  · exact ⟨rfl, id⟩
  · refine ⟨rfl, fun h => ?_⟩
    simp [Ppu.withHit, h]

/-- The NMI is pending after the boundary step only where it starts vblank with control bit 7 set, or where it was pending
before and the frame did not wrap. -/
theorem boundaryStep_nmi {s : State} (h : (boundaryStep s).nmi = true) :
    (s.ppu.scanline = 241 ∧ (boundaryStep s).ppu.status.getLsbD 7 = true ∧ s.ppu.ctrl.getLsbD 7 = true) ∨
    (s.nmi = true ∧ (s.ppu.status.getLsbD 7 = true → (boundaryStep s).ppu.status.getLsbD 7 = true)) := by
  rcases boundaryStep_cases s with ⟨h241, e⟩ | ⟨_, e⟩ | ⟨_, _, e⟩ <;> rw [e] at h ⊢
  · have hvb : (vblankStart s).ppu.status.getLsbD 7 = true := by simp [Ppu.inVblank]
    cases hc : s.ppu.ctrl.getLsbD 7
    · refine .inr ⟨?_, fun _ => hvb⟩
      rw [vblankStart, hc] at h
      exact h
    · exact .inl ⟨h241, hvb, rfl⟩
  · exact absurd h (by simp [frameWrap, deassertNmi])
  · exact .inr ⟨h, id⟩

/-- A pending NMI means vblank with control bit 7 set, on a scanline from which `n` more advances end at 245 at the
latest. -/
def NmiInVblank (n : Nat) (s : State) : Prop :=
  s.nmi = true → s.ppu.status.getLsbD 7 = true ∧ s.ppu.ctrl.getLsbD 7 = true ∧ 241 ≤ s.ppu.scanline ∧
    s.ppu.scanline + n ≤ 245

/-- One scanline advance uses up one of the advances that are left, of which there are five at most. -/
theorem scanlineAdvance_nmi {n : Nat} {s : State} (hn : n < 5) (h : NmiInVblank (n + 1) s) :
    NmiInVblank n (scanlineAdvance s) := by
  intro hnmi
  have hctrl : (scanlineAdvance s).ppu.ctrl = s.ppu.ctrl := by rw [scanlineAdvance_keeps s]
  have hline := (scanlineAdvance_counters s).2
  have hnext : (s.setPpu s.ppu.nextScanline).nmi = s.nmi ∧
      (s.setPpu s.ppu.nextScanline).ppu.status = s.ppu.status ∧
      (s.setPpu s.ppu.nextScanline).ppu.ctrl = s.ppu.ctrl ∧
      (s.setPpu s.ppu.nextScanline).ppu.scanline = s.ppu.scanline + 1 := by simp [Ppu.nextScanline]
  rw [hctrl, hline]
  unfold scanlineAdvance scanlineEvents at hnmi ⊢
  generalize s.setPpu s.ppu.nextScanline = u at hnext hnmi ⊢
  obtain ⟨unmi, ust, uctrl, uline⟩ := hnext
  obtain ⟨vnmi, vst⟩ := rowStep_sprite0HitStep_nmi u
  have vline := (rowStep_sprite0HitStep_counters u).2
  have vctrl : (rowStep (sprite0HitStep u)).ppu.ctrl = u.ppu.ctrl := by
    rw [(sprite0HitStep_keeps u).trans (rowStep_keeps _)]
  rcases boundaryStep_nmi hnmi with ⟨h241, hst, hc⟩ | ⟨hold, hst⟩
  · rw [vctrl, uctrl] at hc
    refine ⟨hst, hc, ?_⟩
    split <;> omega
  · obtain ⟨hs7, hc7, hge, hle⟩ := h ((vnmi.trans unmi).symm.trans hold)
    refine ⟨hst (vst (by rw [ust]; exact hs7)), hc7, ?_⟩
    split <;> omega

/-- The run loop, over at most five advances. -/
theorem ppuLoop_nmi : ∀ (fuel : Nat) (s : State), fuel ≤ 5 → NmiInVblank fuel s → NmiInVblank 0 (ppuLoop fuel s)
  | 0, _, _, h => h
  | fuel + 1, s, hf, h => by
    unfold ppuLoop
    split
    · exact ppuLoop_nmi fuel _ (by omega) (scanlineAdvance_nmi (by omega) h)
    · intro hn
      obtain ⟨hs7, hc7, hge, hle⟩ := h hn
      exact ⟨hs7, hc7, hge, by omega⟩

/-- From a state with no NMI pending, fewer than 1706 dots assert it only as vblank starts, at most four scanlines back. -/
theorem ppuRun_nmi {n : Nat} {s : State} (hn : n < 1706) (hcyc : s.ppu.cycle < 341) (hnmi : s.nmi = false) :
    NmiInVblank 0 (ppuRun n s) := by
  have hfuel : (s.ppu.cycle + n) / Config.dotsPerScanline ≤ 5 := by
    unfold Config.dotsPerScanline
    omega
  refine ppuLoop_nmi _ _ hfuel fun h => ?_
  rw [State.setPpu_nmi, hnmi] at h
  cases h

/-- Settles O59: no NMI is pending when the dots of a step begin, and they are too few for six scanline advances. -/
theorem nmiPendingOnlyInVblank : Obligations.NmiPendingOnlyInVblank := by
  intro s t hs htiming hstep hnmi
  obtain ⟨s1, i, s2, u, hbegin, hfetch, hexec, rfl⟩ := step_next.1 hstep
  have hinv : u.Inv := State.Inv.cpuClosed.exec hexec
    (State.Inv.cpuClosed.fetchInstr hfetch (State.Inv.cpuClosed.beginStep hbegin (environmentMove_inv hs)))
  have hquiet : u.nmi = false := by
    have hkeeps : CpuKeeps s1 u := (CpuKeeps.cpuClosed s1).exec hexec
      ((CpuKeeps.cpuClosed s1).fetchInstr hfetch (.refl s1))
    cases hu : u.nmi
    · rfl
    · exact (hkeeps.nmi hu).symm.trans (beginStep_nmi hbegin)
  have henv : s2.env = s.env := by
    have hclosed := CpuKeeps.cpuClosed (environmentMove s)
    obtain ⟨-, hmove, -⟩ := environmentMove_keeps s
    exact (hclosed.fetchInstr hfetch (hclosed.beginStep hbegin (.refl _))).env.trans hmove
  have hcount : cyclesOf i s2 ≤ 11 := by
    rw [cyclesOf, henv, htiming]
    exact countOf_standard_le i s2
  have hstall : s2.cycles ≤ 514 := by
    have h := beginStep_cycles_le hbegin
    rw [htiming] at h
    exact (fetchInstr_cycles hfetch).trans_le h
  have hdots : Config.dotsPerCycle * (s2.cycles + cyclesOf i s2) < 1706 := by
    unfold Config.dotsPerCycle
    omega
  exact ppuRun_nmi hdots hinv.cycle hquiet hnmi

/-! The environment's move, and the rules of the whole step. -/

/-- There is no move under `never`, nor before the first step after power-on (60_exceptions R327, 49_dma_sequencer R307). -/
theorem environmentMove_none {s : State} (h : s.env.externalIrq = .never ∨ s.stepped = false) :
    environmentMove s = s := by
  unfold environmentMove
  split
  · rfl
  · rfl
  · next hst hany => simp [hst, hany] at h

/-- Under `any`, between two steps, a move is drawn. -/
theorem environmentMove_any {s : State} (hany : s.env.externalIrq = .any) (hst : s.stepped = true) :
    environmentMove s =
      { s with irq := (Config.externalIrq s.draws).getD s.irq, draws := s.draws + 1 } := by
  simp only [environmentMove, hany, hst, State.setIrq, State.drawn]

/-- A step keeps what its parts keep, from the environment's move on. -/
theorem step_keeps {s t : State} (h : step s = .next t) :
    t.cart = s.cart ∧ t.env = s.env ∧
      (∀ i ∈ [0x10, 0x14, 0x18, 0x1C], t.ppu.palette.read i = s.ppu.palette.read i) ∧
      (t.irq = true → (environmentMove s).irq = true) := by
  obtain ⟨n, u, hu, rfl⟩ := (CpuKeeps.cpuClosed (environmentMove s)).step h (.refl _)
  obtain ⟨hcart, henv, hppu⟩ := environmentMove_keeps s
  obtain ⟨ucart, uenv, umirrors, uirq, -⟩ := hu
  rw [ppuRun_keeps n u]
  exact ⟨ucart.trans hcart, uenv.trans henv, fun i hi => hppu ▸ umirrors i hi, uirq⟩

/-- Every step that answers records that a step has been taken. -/
theorem step_stepped {s t : State} (h : step s = .next t) : t.stepped = true := by
  obtain ⟨_, i, s2, u, -, -, -, rfl⟩ := step_next.1 h
  rw [endStep, ppuRun_keeps]
  rfl

/-- Settles O58: the updates of the CPU's part of a step and the dots of the PPU keep all of it; the IRQ is asserted by the
environment's move alone. -/
theorem stepNeverWrites : Obligations.StepNeverWrites := by
  refine ⟨fun s t h => ?_, fun w => environmentMove_none (.inr rfl),
    fun s => ⟨environmentMove_none, environmentMove_any⟩⟩
  obtain ⟨hcart, henv, hmirrors, hirq⟩ := step_keeps h
  refine ⟨hcart, henv, hmirrors, hirq, fun hnone ht => ?_, step_stepped h⟩
  have hmove := hirq ht
  rwa [environmentMove_none hnone] at hmove

end Sys2Proof.Machine

/-! Frames of the instructions that read memory, and of those that read it and write it back (10_state R31). -/

namespace Sys2Proof.Machine

/-! Which port an address selects, and what a read there does. -/

/-- The number of a port (47_ppu_ports R241). -/
def Port.number : Port → Nat
  | .ctrl => 0
  | .mask => 1
  | .status => 2
  | .oamAddr => 3
  | .oamData => 4
  | .scroll => 5
  | .vramAddr => 6
  | .data => 7

theorem portOf_number (a : Addr) : (portOf a).number = a.toNat % 8 := by
  unfold portOf
  have h : a.toNat % 8 < 8 := Nat.mod_lt _ (by omega)
  generalize a.toNat % 8 = k at h ⊢
  interval_cases k <;> rfl

theorem onPort_iff {a : Addr} {k : Nat} :
    onPort a k ↔ 0x2000 ≤ a.toNat ∧ a.toNat < 0x4000 ∧ (portOf a).number = k := by
  rw [portOf_number]
  rfl

/-- What a bus read that answers does, by the address it reads: port 2 resets the status register, the two device registers
draw and emit, and elsewhere nothing but a draw happens. -/
theorem busRead_effect {a : Addr} {s t : State} {v : Byte} (h : busRead a s = .next (v, t)) :
    (onPort a 2 ∧ t = s.setPpu s.ppu.afterStatusRead) ∨ (¬ onPort a 2 ∧ (t = s ∨ t = s.drawn)) ∨
      ((a = 0x4015 ∨ a = 0x4016) ∧ ∃ e, t = s.drawn.emit e) := by
  have hdev (w : Addr) : a.toNat = w.toNat → a = w := BitVec.eq_of_toNat_eq
  unfold busRead readTarget at h
  rw [onPort_iff]
  by_cases hram : a.toNat < 0x2000
  · simp only [hram, if_true] at h
    cases h
    exact .inr (.inl ⟨by omega, .inl rfl⟩)
  by_cases hport : a.toNat < 0x4000
  · simp only [hram, hport, if_true, if_false] at h
    generalize portOf a = p at h ⊢
    cases p with
    | status => cases h; exact .inl ⟨⟨by omega, hport, rfl⟩, rfl⟩
    | oamData => cases h; exact .inr (.inl ⟨by simp [Port.number], .inl rfl⟩)
    | data => cases h
    | ctrl | mask | oamAddr | scroll | vramAddr => cases h; exact .inr (.inl ⟨by simp [Port.number], .inr rfl⟩)
  simp only [hram, hport, if_false] at h
  split_ifs at h with h15 h16 hrom <;> cases h
  · exact .inr (.inr ⟨.inl (hdev 0x4015 h15), _, rfl⟩)
  · exact .inr (.inr ⟨.inr (hdev 0x4016 h16), _, rfl⟩)
  · exact .inr (.inl ⟨by omega, .inl rfl⟩)

/-! The frame of a reading instruction. -/

/-- The memory form of a reading operand, where it has one. -/
def memoryOf : Operand → Option AddrMode
  | .imm _ => none
  | .mem m => some m

/-- What a read of the operand of form `n` leaves as it was, whatever is then done to A, X, Y and P. -/
structure ReadKeeps (n : Option AddrMode) (s t : State) : Prop where
  status : ∀ m, n = some m → onPort (effAddr m s) 2 → t.ppu = { s.ppu with
    status := s.ppu.status &&& 0x7F, addrToggle := false, scrollToggle := false }
  ppu : (∀ m, n = some m → ¬ onPort (effAddr m s) 2) → t.ppu = s.ppu
  output : (∀ m, n = some m → effAddr m s ≠ 0x4015 ∧ effAddr m s ≠ 0x4016) → t.events = s.events
  memory : t.ram = s.ram ∧ t.cart = s.cart
  rest : t.sp = s.sp ∧ t.pc = s.pc ∧ t.nmi = s.nmi ∧ t.irq = s.irq ∧ t.dmaPage = s.dmaPage ∧
    t.dmaPending = s.dmaPending ∧ t.faulted = s.faulted ∧ t.env = s.env ∧ t.cycles = s.cycles ∧ t.stepped = s.stepped

theorem ReadKeeps.refl (s : State) : ReadKeeps none s s := by
  constructor <;> simp

/-- A bus read keeps everything but the status register on port 2 and the output of the device registers. -/
theorem ReadKeeps.of_busRead {m : AddrMode} {s t : State} {v : Byte} (h : busRead (effAddr m s) s = .next (v, t)) :
    ReadKeeps (some m) s t := by
  rcases busRead_effect h with ⟨hp, rfl⟩ | ⟨hp, rfl | rfl⟩ | ⟨hdev, e, rfl⟩
  · constructor <;> simp [hp, Ppu.afterStatusRead]
  · constructor <;> simp [hp]
  · constructor <;> simp [hp]
  · have hp : ¬ onPort (effAddr m s) 2 := by
      rcases hdev with e | e <;> rw [e] <;> simp [onPort]
    constructor <;> simp [hp]
    rcases hdev with e | e <;> simp [e]

theorem readOperand_keeps {o : Operand} {s t : State} {v : Byte} (h : readOperand o s = .next (v, t)) :
    ReadKeeps (memoryOf o) s t ∧ t.a = s.a ∧ t.x = s.x ∧ t.y = s.y ∧ t.p = s.p := by
  rcases readOperand_next h with ⟨rfl, rfl⟩ | ⟨m, rfl, h⟩
  · exact ⟨.refl _, rfl, rfl, rfl, rfl⟩
  · obtain ⟨ha, hx, hy, -, hp, -⟩ := busRead_kept h
    exact ⟨.of_busRead h, ha, hx, hy, hp⟩

/-- What the reading instruction `i` writes of the state `u` after its read: A, X and Y where they are its destination,
and the flags of its rule. -/
structure ReaderWrites (o : Operand) (m : AddrMode) (i : Instr) (u t : State) : Prop where
  a : i ∈ [.ldx o, .ldy o, .cmp o, .cpx o, .cpy o, .bit m] → t.a = u.a
  x : i ≠ .ldx o → i ≠ .lax m → t.x = u.x
  y : i ≠ .ldy o → t.y = u.y
  flags : t.p.r = u.p.r ∧ t.p.b = u.p.b ∧ t.p.d = u.p.d ∧ t.p.i = u.p.i
  v : i ∉ [.adc o, .sbc o, .bit m] → t.p.v = u.p.v
  c : i ∉ [.adc o, .sbc o, .cmp o, .cpx o, .cpy o] → t.p.c = u.p.c

/-- What a reading instruction keeps: what its read keeps, and the registers and flags that its rule does not write. -/
structure ReaderKeeps (o : Operand) (m : AddrMode) (i : Instr) (s t : State) : Prop where
  writes : ∃ u, ReaderWrites o m i u t ∧ u.a = s.a ∧ u.x = s.x ∧ u.y = s.y ∧ u.p = s.p
  keeps : ReadKeeps (memForm i) s t

/-- A reading instruction is its read, and then its update of A, X, Y and P in the state after the read. -/
theorem ReaderKeeps.of_reading {o o' : Operand} {m : AddrMode} {i : Instr} {f : Byte × State → State} {s t : State}
    (h : Res.andThen (readOperand o' s) (fun r => .next (f r)) = .next t) (hform : memForm i = memoryOf o')
    (hrest : ∀ v u, f (v, u) = { u with a := (f (v, u)).a, x := (f (v, u)).x, y := (f (v, u)).y, p := (f (v, u)).p })
    (hwrites : ∀ v u, ReaderWrites o m i u (f (v, u))) : ReaderKeeps o m i s t := by
  obtain ⟨⟨v, u⟩, hread, ht⟩ := Res.andThen_eq_next.1 h
  cases ht
  obtain ⟨hkeeps, hregs⟩ := readOperand_keeps hread
  refine ⟨⟨u, hwrites v u, hregs⟩, ?_⟩
  rw [hrest, hform]
  exact { hkeeps with }

/-- The memory form of an instruction with a reading operand is that of the operand. -/
theorem memForm_reading {o : Operand} {i : Instr}
    (hi : i ∈ [.lda o, .ldx o, .ldy o, .adc o, .sbc o, .and o, .ora o, .eor o, .cmp o, .cpx o, .cpy o]) :
    memForm i = memoryOf o := by
  simp only [List.mem_cons, List.not_mem_nil, or_false] at hi
  cases o <;> rcases hi with rfl | rfl | rfl | rfl | rfl | rfl | rfl | rfl | rfl | rfl | rfl <;> rfl

/-- What each reading instruction keeps. -/
theorem exec_readerKeeps {o : Operand} {m : AddrMode} {i : Instr} {s t : State}
    (hi : i ∈ [.lda o, .ldx o, .ldy o, .adc o, .sbc o, .and o, .ora o, .eor o, .cmp o, .cpx o, .cpy o, .bit m, .lax m])
    (h : exec i s = .next t) : ReaderKeeps o m i s t := by
  have hi : i ∈ [.lda o, .ldx o, .ldy o, .adc o, .sbc o, .and o, .ora o, .eor o, .cmp o, .cpx o, .cpy o] ∨
      i = .bit m ∨ i = .lax m := by simpa [or_assoc] using hi
  rcases hi with hi | rfl | rfl
  · have hform := memForm_reading hi
    simp only [List.mem_cons, List.not_mem_nil, or_false] at hi
    rcases hi with rfl | rfl | rfl | rfl | rfl | rfl | rfl | rfl | rfl | rfl | rfl
    all_goals
      refine .of_reading h hform (fun _ _ => rfl) fun _ _ => ?_
      constructor <;> simp [State.addWithCarry, State.setResultA, State.compare]
  · refine .of_reading (o' := .mem m) (f := fun r => r.2.bitTest r.1) h rfl (fun _ _ => rfl) fun _ _ => ?_
    constructor <;> simp [State.bitTest]
  · refine .of_reading (o' := .mem m) h rfl (fun _ _ => rfl) fun _ _ => ?_
    constructor <;> simp

/-- Settles O52: the read keeps everything but the status register and the output, and the instruction then writes A, X, Y
and P alone. -/
theorem readingFrame : Obligations.ReadingFrame := by
  intro o m i s t hi h
  obtain ⟨⟨u, hw, ea, ex, ey, ep⟩, hstatus, hppu, hout, ⟨hram, hcart⟩, hrest⟩ := exec_readerKeeps hi h
  obtain ⟨hr, hb, hd, hint⟩ := hw.flags
  obtain ⟨hsp, hpc, hrest⟩ := hrest
  have hcode (b : Addr) : codeByte t b = codeByte s b := by unfold codeByte; rw [hram, hcart]
  rw [ep] at hr hb hd hint
  exact ⟨fun hm => (hw.a hm).trans ea, fun h1 h2 => (hw.x h1 h2).trans ex, fun h1 => (hw.y h1).trans ey, hsp, hpc, hr, hb,
    hd, hint, fun hm => by rw [hw.v hm, ep], fun hm => by rw [hw.c hm, ep], hstatus, hppu, hout, hcode, hram, hcart,
    hrest⟩

end Sys2Proof.Machine

/-! The frame of a store, and of a read followed by a store to the same address (20_memory R65, R87). -/

namespace Sys2Proof.Machine

theorem StoreKeeps.refl (ea : Addr) (s : State) : StoreKeeps ea s s := by
  constructor <;> simp

/-- A store to RAM reaches the cell of its address alone, at every mirror of it. -/
theorem StoreKeeps.ram {ea : Addr} {s : State} (v : Byte) (h : ea.toNat < 0x2000) :
    StoreKeeps ea s (s.setRam (s.ram.write (ea.toNat % 0x800) v)) :=
  { StoreKeeps.refl ea s with
    code := fun b hb => by
      unfold codeByte readTarget
      by_cases hram : b.toNat < 0x2000
      · have hne : ea.toNat % 0x800 ≠ b.toNat % 0x800 := fun e => hb ⟨h, hram, e.symm⟩
        simp [hram, Memory.read_write_ne hne]
      · simp only [hram, if_false]
        split_ifs <;> rfl }

/-- The nametable byte that a port-7 write reaches, in the range of the latched address that is routed there. -/
theorem nametable_offset {a : Addr} (h : 0x2000 ≤ a.toNat) (h' : a.toNat < 0x3F00) :
    (if 0x3000 ≤ a.toNat then a.toNat - 0x3000 else a.toNat - 0x2000) = (a.toNat - 0x2000) % 0x1000 := by
  split <;> omega

/-- A port-7 write, before the address steps, reaches the byte that the latched address selects. -/
theorem storeData_keeps (m : Mirroring) (q : Ppu) (v : Byte) :
    (∀ j, ¬ (0x2000 ≤ q.vramAddr.toNat ∧ q.vramAddr.toNat < 0x3F00 ∧
        j = ntRemap m ((q.vramAddr.toNat - 0x2000) % 0x1000)) → (q.storeData m v).vram.read j = q.vram.read j) ∧
    (∀ j, ¬ (0x3F00 ≤ q.vramAddr.toNat ∧ j = paletteIndex q.vramAddr) →
      (q.storeData m v).palette.read j = q.palette.read j) ∧
    (∀ j, ¬ (q.vramAddr.toNat < 0x2000 ∧ j = q.vramAddr.toNat) → (q.storeData m v).chr.read j = q.chr.read j) ∧
    q.storeData m v = { q with
      vram := (q.storeData m v).vram, palette := (q.storeData m v).palette, chr := (q.storeData m v).chr } := by
  unfold Ppu.storeData vramTarget
  split_ifs with h1 h2 h3
  · refine ⟨fun _ _ => rfl, fun j hj => Memory.read_write_ne fun e => hj ⟨h1, e.symm⟩, fun _ _ => rfl, rfl⟩
  · refine ⟨fun j hj => Memory.read_write_ne fun e => hj ⟨by omega, by omega, ?_⟩, fun _ _ => rfl, fun _ _ => rfl, rfl⟩
    rw [← e, ← nametable_offset (by omega) (by omega), if_pos h2]
  · refine ⟨fun j hj => Memory.read_write_ne fun e => hj ⟨h3, by omega, ?_⟩, fun _ _ => rfl, fun _ _ => rfl, rfl⟩
    rw [← e, ← nametable_offset (by omega) (by omega), if_neg h2]
  · refine ⟨fun _ _ => rfl, fun _ _ => rfl, fun j hj => Memory.read_write_ne fun e => hj ⟨by omega, e.symm⟩, rfl⟩

/-- A store to a port reaches what the port's rule writes, and nothing else (47_ppu_ports R243 to R254). -/
theorem StoreKeeps.port {ea : Addr} {s : State} {p : Port} (v : Byte) (h : onPort ea p.number) :
    StoreKeeps ea s (s.setPpu (s.ppu.writePort s.cart.mirroring p v)) := by
  cases p with
  | ctrl | mask | status | oamAddr =>
    exact { StoreKeeps.refl ea s with ports := by simp_all [Ppu.writePort, Port.number] }
  | oamData =>
    exact { StoreKeeps.refl ea s with
      oam := fun j hj => Memory.read_write_ne fun e => hj ⟨h, e.symm⟩
      ports := by simp_all [Ppu.writePort, Ppu.writeOamData, Port.number] }
  | scroll =>
    simp only [Ppu.writePort, Ppu.writeScroll]
    split <;> exact { StoreKeeps.refl ea s with ports := by simp_all [Port.number] }
  | vramAddr =>
    simp only [Ppu.writePort, Ppu.writeVramAddr]
    split <;> exact { StoreKeeps.refl ea s with ports := by simp_all [Port.number] }
  | data =>
    obtain ⟨hvram, hpal, hchr, hrest⟩ := storeData_keeps s.cart.mirroring s.ppu v
    simp only [Ppu.writePort, Ppu.stepVramAddr]
    rw [hrest]
    rw [Port.number] at h
    exact { StoreKeeps.refl ea s with
      vram := fun j hj => hvram j fun hc => hj ⟨h, hc⟩
      palette := fun j hj => hpal j fun hc => hj ⟨h, hc⟩
      chr := fun j hj => hchr j fun hc => hj ⟨h, hc⟩
      ports := by simp [h] }

/-- A store that answers keeps all that its address does not reach. -/
theorem StoreKeeps.of_busWrite {ea : Addr} {v : Byte} {s t : State} (h : busWrite ea v s = .next t) :
    StoreKeeps ea s t := by
  unfold busWrite writeTarget at h
  by_cases hram : ea.toNat < 0x2000
  · simp only [hram, if_true] at h
    cases h
    exact .ram v hram
  by_cases hport : ea.toNat < 0x4000
  · simp only [hram, hport, if_true, if_false] at h
    obtain ⟨-, rfl⟩ := ppuWrite_next h
    exact .port v (onPort_iff.2 ⟨by omega, hport, rfl⟩)
  simp only [hram, hport, if_false] at h
  split_ifs at h with hdma hin haudio hrom <;> cases h
  · have hea : ea = 0x4014 := BitVec.eq_of_toNat_eq hdma
    exact { StoreKeeps.refl ea s with dma := fun hne => absurd hea hne }
  · exact { StoreKeeps.refl ea s with output := fun ho => by omega }
  · exact { StoreKeeps.refl ea s with output := fun ho => by omega }
  · exact .refl ea s

/-- A store to port 2 changes nothing (47_ppu_ports R245). -/
theorem busWrite_statusPort {ea : Addr} {v : Byte} {s t : State} (hp : onPort ea 2) (h : busWrite ea v s = .next t) :
    t = s := by
  obtain ⟨hge, hlt, hnum⟩ := onPort_iff.1 hp
  have hport : portOf ea = .status := by
    generalize portOf ea = p at hnum
    cases p <;> simp [Port.number] at hnum ⊢
  have hram : ¬ ea.toNat < 0x2000 := by omega
  simp only [busWrite, writeTarget, hram, hlt, hport, if_true, if_false] at h
  obtain ⟨-, rfl⟩ := ppuWrite_next h
  rfl

/-- A read of the address before the store reaches no more than the store may. -/
theorem StoreKeeps.of_busRead {ea : Addr} {v : Byte} {s u t : State} (h : busRead ea s = .next (v, u))
    (hk : StoreKeeps ea u t) : StoreKeeps ea s t := by
  rcases busRead_effect h with ⟨hp, rfl⟩ | ⟨_, rfl | rfl⟩ | ⟨hdev, e, rfl⟩
  · obtain ⟨h0, h1, _, h3, h5, _, h6, _⟩ := hk.ports
    exact { hk with
      ports := ⟨h0, h1, fun hn => absurd hp hn, h3, h5, fun _ hn => absurd hp hn, h6, fun _ hn => absurd hp hn⟩ }
  · exact hk
  · exact { hk with }
  · have hout : ¬ (ea.toNat < 0x4000 ∨ 0x4020 ≤ ea.toNat) := by
      rcases hdev with rfl | rfl <;> decide
    exact { hk with output := fun ho => absurd ho hout }

/-! The frame of a read-modify-write instruction. -/

/-- What the read-modify-write instruction `i` writes of the state `u` after its store: A where it is the destination, and
the flags of its rule. -/
structure ModifierWrites (m : AddrMode) (i : Instr) (u t : State) : Prop where
  a : i ∈ [.inc m, .dec m, .asl (.mem m), .lsr (.mem m), .rol (.mem m), .ror (.mem m), .dcp m] → t.a = u.a
  flags : t.p.r = u.p.r ∧ t.p.b = u.p.b ∧ t.p.d = u.p.d ∧ t.p.i = u.p.i
  v : i ∉ [.isb m, .rra m] → t.p.v = u.p.v
  c : i ∈ [.inc m, .dec m] → t.p.c = u.p.c

/-- What a read-modify-write instruction keeps. -/
structure ModifierKeeps (m : AddrMode) (i : Instr) (s t : State) : Prop where
  writes : ∃ u, ModifierWrites m i u t ∧ u.a = s.a ∧ u.p = s.p
  index : t.x = s.x ∧ t.y = s.y
  store : StoreKeeps (effAddr m s) s t
  status : onPort (effAddr m s) 2 → t.ppu = { s.ppu with
    status := s.ppu.status &&& 0x7F, addrToggle := false, scrollToggle := false }

/-- A read-modify-write instruction is one read, one store to the same address, and then its update of A and P. -/
theorem ModifierKeeps.of_modifying {α : Type} {m : AddrMode} {i : Instr} {g : Byte → α} {out : α → Byte}
    {f : α × State → State} {s t : State}
    (h : Res.andThen (modifyMem m g out s) (fun r => .next (f r)) = .next t)
    (hrest : ∀ v u, f (v, u) = { u with a := (f (v, u)).a, p := (f (v, u)).p })
    (hwrites : ∀ v u, ModifierWrites m i u (f (v, u))) : ModifierKeeps m i s t := by
  obtain ⟨⟨v, u⟩, hmod, ht⟩ := Res.andThen_eq_next.1 h
  cases ht
  obtain ⟨w, u', hread, -, hwrite⟩ := modifyMem_next hmod
  obtain ⟨ra, rx, ry, -, rp, -⟩ := busRead_kept hread
  obtain ⟨wa, wx, wy, -, wp, -⟩ := busWrite_kept hwrite
  have hstore : StoreKeeps (effAddr m s) s u := .of_busRead hread (.of_busWrite hwrite)
  refine ⟨⟨u, hwrites v u, wa.trans ra, wp.trans rp⟩, ?_, ?_, fun hp => ?_⟩ <;> rw [hrest]
  · exact ⟨wx.trans rx, wy.trans ry⟩
  · exact { hstore with }
  · rw [busWrite_statusPort hp hwrite]
    exact (ReadKeeps.of_busRead hread).status m rfl hp

/-- What each read-modify-write instruction keeps. -/
theorem exec_modifierKeeps {m : AddrMode} {i : Instr} {s t : State}
    (hi : i ∈ [.inc m, .dec m, .asl (.mem m), .lsr (.mem m), .rol (.mem m), .ror (.mem m), .dcp m, .isb m, .slo m,
      .rla m, .sre m, .rra m])
    (h : exec i s = .next t) : ModifierKeeps m i s t := by
  simp only [List.mem_cons, List.not_mem_nil, or_false] at hi
  rcases hi with rfl | rfl | rfl | rfl | rfl | rfl | rfl | rfl | rfl | rfl | rfl | rfl
  all_goals
    refine .of_modifying h (fun _ _ => rfl) fun _ _ => ?_
    constructor <;> simp [State.setShiftFlags, State.compare, State.addWithCarry, State.setCarryThenA]

/-- Settles O54: the read and the store reach what their address selects, and the instruction then writes A and P alone. -/
theorem modifyingFrame : Obligations.ModifyingFrame := by
  intro m i s t hi h
  obtain ⟨⟨u, hw, ea, ep⟩, ⟨hx, hy⟩, hstore, hstatus⟩ := exec_modifierKeeps hi h
  obtain ⟨hr, hb, hd, hint⟩ := hw.flags
  rw [ep] at hr hb hd hint
  exact ⟨fun hm => (hw.a hm).trans ea, hx, hy, hr, hb, hd, hint, fun hm => by rw [hw.v hm, ep],
    fun hm => by rw [hw.c hm, ep], hstore, hstatus⟩

end Sys2Proof.Machine

/-! The stored break flag is not observable: every part of a step, run from two states that differ in it alone, ends in such
states again, or in the same fault (10_state R29). -/

namespace Sys2Proof.Machine

/-! States and results that agree but for the stored break flag. -/

/-- The second state is the first with another stored break flag. -/
def SameButBreak (s t : State) : Prop := ∃ b, t = s.withBreak b

/-- Two results that agree: values in the relation `R`, or the same fault. -/
inductive Agree {α : Type} (R : α → α → Prop) : Res α → Res α → Prop
  | next {v w : α} (h : R v w) : Agree R (.next v) (.next w)
  | fault (f : Fault) : Agree R (.fault f) (.fault f)

/-- Two answers with one value and states that differ in the stored break flag alone. -/
def SameAnswer {α : Type} (p q : α × State) : Prop := q.1 = p.1 ∧ SameButBreak p.2 q.2

theorem Agree.andThen {α β : Type} {R : α → α → Prop} {Q : β → β → Prop} {r r' : Res α} {f g : α → Res β}
    (h : Agree R r r') (hfg : ∀ v w, R v w → Agree Q (f v) (g w)) : Agree Q (r.andThen f) (r'.andThen g) := by
  cases h with
  | next hvw => exact hfg _ _ hvw
  | fault e => exact .fault e

/-- Going on from a state: it is enough to look at the same state with another break flag. -/
theorem Agree.andThenState {β : Type} {Q : β → β → Prop} {r r' : Res State} {f g : State → Res β}
    (h : Agree SameButBreak r r') (hfg : ∀ u b, Agree Q (f u) (g (u.withBreak b))) :
    Agree Q (r.andThen f) (r'.andThen g) :=
  h.andThen fun u _ ⟨b, e⟩ => e ▸ hfg u b

/-- Going on from a value and a state. -/
theorem Agree.andThenAnswer {α β : Type} {Q : β → β → Prop} {r r' : Res (α × State)} {f g : α × State → Res β}
    (h : Agree SameAnswer r r') (hfg : ∀ v u b, Agree Q (f (v, u)) (g (v, u.withBreak b))) :
    Agree Q (r.andThen f) (r'.andThen g) := by
  refine h.andThen ?_
  rintro ⟨v, u⟩ ⟨v', u'⟩ ⟨hv : v' = v, b, hu : u' = u.withBreak b⟩
  rw [hv, hu]
  exact hfg v u b

section
variable (s : State) (b : Bool)

/-! The bus and the operands. -/

theorem busRead_withBreak (a : Addr) : Agree SameAnswer (busRead a s) (busRead a (s.withBreak b)) := by
  unfold busRead
  cases readTarget a with
  | port p =>
    cases p with
    | data => exact .fault _
    | ctrl | mask | status | oamAddr | oamData | scroll | vramAddr => exact .next ⟨rfl, b, rfl⟩
  | unmapped => exact .fault _
  | ram | audioStatus | input | rom => exact .next ⟨rfl, b, rfl⟩

theorem ppuWrite_withBreak (p : Port) (v : Byte) : Agree SameButBreak (ppuWrite p v s) (ppuWrite p v (s.withBreak b)) := by
  have hppu : (s.withBreak b).ppu = s.ppu := rfl
  unfold ppuWrite
  rw [hppu]
  split
  · exact .fault _
  · exact .next ⟨b, rfl⟩

theorem busWrite_withBreak (a : Addr) (v : Byte) : Agree SameButBreak (busWrite a v s) (busWrite a v (s.withBreak b)) := by
  unfold busWrite
  cases writeTarget a with
  | port p => exact ppuWrite_withBreak s b p v
  | unmapped => exact .fault _
  | ram | dma | input | audio | rom => exact .next ⟨b, rfl⟩

theorem effAddr_withBreak (m : AddrMode) : effAddr m (s.withBreak b) = effAddr m s := by
  cases m <;> rfl

theorem readOperand_withBreak (o : Operand) : Agree SameAnswer (readOperand o s) (readOperand o (s.withBreak b)) := by
  cases o with
  | imm v => exact .next ⟨rfl, b, rfl⟩
  | mem m =>
    show Agree SameAnswer (busRead (effAddr m s) s) (busRead (effAddr m (s.withBreak b)) (s.withBreak b))
    rw [effAddr_withBreak]
    exact busRead_withBreak s b _

theorem storeMem_withBreak (m : AddrMode) (v : Byte) :
    Agree SameButBreak (storeMem m v s) (storeMem m v (s.withBreak b)) := by
  unfold storeMem
  rw [effAddr_withBreak]
  exact busWrite_withBreak s b _ v

theorem modifyMem_withBreak {α : Type} (m : AddrMode) (f : Byte → α) (out : α → Byte) :
    Agree SameAnswer (modifyMem m f out s) (modifyMem m f out (s.withBreak b)) := by
  unfold modifyMem readMem
  rw [effAddr_withBreak]
  exact (busRead_withBreak s b _).andThenAnswer fun _ u c =>
    (busWrite_withBreak u c _ _).andThenState fun _ d => .next ⟨rfl, d, rfl⟩

theorem jumpTarget_withBreak (t : JumpOperand) : Agree SameAnswer (jumpTarget t s) (jumpTarget t (s.withBreak b)) := by
  cases t with
  | abs w => exact .next ⟨rfl, b, rfl⟩
  | ind w =>
    exact (busRead_withBreak s b _).andThenAnswer fun _ u c =>
      (busRead_withBreak u c _).andThenAnswer fun _ _ d => .next ⟨rfl, d, rfl⟩

/-! The instructions, by shape. -/

variable {s b} in
theorem reading_withBreak {o : Operand} {f g : Byte × State → State}
    (hfg : ∀ v u c, g (v, u.withBreak c) = (f (v, u)).withBreak c) :
    Agree SameButBreak (Res.andThen (readOperand o s) fun r => .next (f r))
      (Res.andThen (readOperand o (s.withBreak b)) fun r => .next (g r)) :=
  (readOperand_withBreak s b o).andThenAnswer fun v u c => .next ⟨c, hfg v u c⟩

variable {s b} in
theorem modifying_withBreak {α : Type} {m : AddrMode} {h : Byte → α} {out : α → Byte} {f g : α × State → State}
    (hfg : ∀ v u c, g (v, u.withBreak c) = (f (v, u)).withBreak c) :
    Agree SameButBreak (Res.andThen (modifyMem m h out s) fun r => .next (f r))
      (Res.andThen (modifyMem m h out (s.withBreak b)) fun r => .next (g r)) :=
  (modifyMem_withBreak s b m h out).andThenAnswer fun v u c => .next ⟨c, hfg v u c⟩

theorem shiftOperand_withBreak (f : Byte → Shifted) (o : ShiftOperand) :
    Agree SameButBreak (shiftOperand f o s) (shiftOperand f o (s.withBreak b)) := by
  cases o with
  | acc => exact .next ⟨b, rfl⟩
  | mem m => exact modifying_withBreak fun _ _ _ => rfl

theorem branchIf_withBreak (cond : Bool) (d : Byte) :
    Agree SameButBreak (branchIf cond d s) (branchIf cond d (s.withBreak b)) := by
  cases cond <;> exact .next ⟨b, rfl⟩

/-- What taking an interrupt ends in does not depend on the stored break flag: it is written first. -/
theorem takeInterrupt_withBreak (brk : Bool) (ret v : Addr) :
    takeInterrupt brk ret v (s.withBreak b) = takeInterrupt brk ret v s := by
  rw [takeInterrupt_eq, takeInterrupt_eq]
  rfl

end

theorem SameButBreak.refl (s : State) : SameButBreak s s := ⟨s.p.b, rfl⟩

/-- PHP pushes bit 4 set, whatever the stored break flag holds (41_transfer_stack R148). -/
theorem pushedStatus_withBreak (p : Flags) (b : Bool) :
    Flags.toByte { p with b := b } ||| 0x30 = p.toByte ||| 0x30 := by
  obtain ⟨n, v, r, b0, d, i, z, c⟩ := p
  revert n v r b0 d i z c b
  decide

section
variable (s : State) (b : Bool)

/-- No instruction reads the stored break flag, but to keep it: PHP and BRK push bit 4 set, PLP and RTI keep the flag. -/
theorem exec_withBreak (i : Instr) : Agree SameButBreak (exec i s) (exec i (s.withBreak b)) := by
  cases i with
  | lda o | ldx o | ldy o | adc o | sbc o | and o | ora o | eor o | cmp o | cpx o | cpy o =>
    exact reading_withBreak fun _ _ _ => rfl
  | bit m => exact reading_withBreak (o := .mem m) (f := fun r => r.2.bitTest r.1) fun _ _ _ => rfl
  | lax m => exact reading_withBreak (o := .mem m) (f := fun r => ((r.2.setA r.1).setX r.1).setNZ r.1) fun _ _ _ => rfl
  | sta m | stx m | sty m | sax m => exact storeMem_withBreak s b m _
  | inc m | dec m | dcp m | isb m | slo m | rla m | sre m | rra m => exact modifying_withBreak fun _ _ _ => rfl
  | asl o | lsr o | rol o | ror o => exact shiftOperand_withBreak s b _ o
  | jmp t => exact (jumpTarget_withBreak s b t).andThenAnswer fun _ _ c => .next ⟨c, rfl⟩
  | bcc d | bcs d | beq d | bne d | bmi d | bpl d | bvc d | bvs d => exact branchIf_withBreak s b _ d
  | php =>
    refine .next ⟨b, ?_⟩
    show push (Flags.toByte { s.p with b := b } ||| 0x30) (s.withBreak b) = _
    rw [pushedStatus_withBreak]
    rfl
  | brk =>
    have hpc : (s.withBreak b).pc = s.pc := rfl
    simp only [exec, execBrk, hpc, takeInterrupt_withBreak]
    exact .next (.refl _)
  | illegal op => exact .fault _
  | tax | tay | txa | tya | tsx | txs | pha | pla | plp | inx | iny | dex | dey | jsr | rts | rti | clc | sec | cli | sei
  | cld | sed | clv | nop | nopU | sbcU => exact .next ⟨b, rfl⟩

/-! The parts of a step before the instruction. -/

theorem environmentMove_withBreak : environmentMove (s.withBreak b) = (environmentMove s).withBreak b := by
  by_cases hnone : s.env.externalIrq = .never ∨ s.stepped = false
  · rw [environmentMove_none hnone, environmentMove_none (s := s.withBreak b) hnone]
  · have hany : s.env.externalIrq = .any := by
      cases h : s.env.externalIrq <;> simp_all
    have hst : s.stepped = true := by
      cases h : s.stepped <;> simp_all
    rw [environmentMove_any hany hst, environmentMove_any (s := s.withBreak b) hany hst]
    rfl

theorem dmaStep_withBreak : Agree SameButBreak (dmaStep s) (dmaStep (s.withBreak b)) := by
  have hpending : (s.withBreak b).dmaPending = s.dmaPending := rfl
  have hpage : (s.withBreak b).dmaPage = s.dmaPage := rfl
  have hram : (s.withBreak b).ram = s.ram := rfl
  unfold dmaStep dmaRun
  rw [hpending, hpage, hram]
  generalize pageBytes s.ram s.dmaPage = vs
  split_ifs
  · exact .fault _
  · exact .next ⟨b, rfl⟩
  · exact .next ⟨b, rfl⟩

/-- The IRQ half of the poll. -/
theorem pollIrq_withBreak : SameButBreak (if s.irq && !s.p.i then serviceIrq s else s)
    (if (s.withBreak b).irq && !(s.withBreak b).p.i then serviceIrq (s.withBreak b) else s.withBreak b) := by
  have hcond : ((s.withBreak b).irq && !(s.withBreak b).p.i) = (s.irq && !s.p.i) := rfl
  have hservice : serviceIrq (s.withBreak b) = serviceIrq s :=
    congrArg deassertIrq (takeInterrupt_withBreak s b false s.pc Config.irqVector)
  rw [hcond, hservice]
  split
  · exact .refl _
  · exact ⟨b, rfl⟩

theorem pollInterrupts_withBreak : SameButBreak (pollInterrupts s) (pollInterrupts (s.withBreak b)) := by
  have hnmi : (s.withBreak b).nmi = s.nmi := rfl
  have hservice : serviceNmi (s.withBreak b) = serviceNmi s :=
    congrArg deassertNmi (takeInterrupt_withBreak s b false s.pc Config.nmiVector)
  unfold pollInterrupts
  rw [hnmi, hservice]
  split
  · exact .refl _
  · exact pollIrq_withBreak s b

theorem beginStep_withBreak : Agree SameButBreak (beginStep s) (beginStep (s.withBreak b)) := by
  have hfaulted : (s.withBreak b).faulted = s.faulted := rfl
  unfold beginStep
  rw [hfaulted, environmentMove_withBreak]
  split
  · exact .fault _
  · exact (dmaStep_withBreak _ b).andThenState fun u c => .next (pollInterrupts_withBreak u c)

theorem fetchByte_withBreak : Agree SameAnswer (fetchByte s) (fetchByte (s.withBreak b)) :=
  (busRead_withBreak s b _).andThenAnswer fun _ _ c => .next ⟨rfl, c, rfl⟩

theorem fetchOperands_withBreak (n : Nat) : Agree SameAnswer (fetchOperands n s) (fetchOperands n (s.withBreak b)) := by
  unfold fetchOperands
  split
  · exact .next ⟨rfl, b, rfl⟩
  · exact (fetchByte_withBreak s b).andThenAnswer fun _ _ c => .next ⟨rfl, c, rfl⟩
  · exact (fetchByte_withBreak s b).andThenAnswer fun _ u c =>
      (fetchByte_withBreak u c).andThenAnswer fun _ _ d => .next ⟨rfl, d, rfl⟩

theorem fetchInstr_withBreak : Agree SameAnswer (fetchInstr s) (fetchInstr (s.withBreak b)) :=
  (fetchByte_withBreak s b).andThenAnswer fun _ u c =>
    (fetchOperands_withBreak u c _).andThenAnswer fun _ _ d => .next ⟨rfl, d, rfl⟩

/-! The count of cycles and the PPU's dots. -/

theorem crossed_withBreak (m : AddrMode) : crossed m (s.withBreak b) = crossed m s := by
  cases m <;> rfl

theorem branchForm_withBreak (i : Instr) : branchForm i (s.withBreak b).p = branchForm i s.p := by
  cases i <;> rfl

theorem cyclesOf_withBreak (i : Instr) : cyclesOf i (s.withBreak b) = cyclesOf i s := by
  have henv : (s.withBreak b).env = s.env := rfl
  have hbranch (d : Byte) : branchCrossed d (s.withBreak b) = branchCrossed d s := rfl
  simp only [cyclesOf, countOf, pageCycles, branchCycles, crossed_withBreak, branchForm_withBreak, henv, hbranch]

theorem sprite0HitStep_withBreak : sprite0HitStep (s.withBreak b) = (sprite0HitStep s).withBreak b := by
  have henv : (s.withBreak b).env = s.env := rfl
  have hppu : (s.withBreak b).ppu = s.ppu := rfl
  unfold sprite0HitStep
  rw [henv, hppu]
  cases s.env.sprite0Hit
  · rfl
  · dsimp only
    split <;> rfl

theorem rowStep_withBreak : rowStep (s.withBreak b) = (rowStep s).withBreak b := by
  have hppu : (s.withBreak b).ppu = s.ppu := rfl
  unfold rowStep
  rw [hppu]
  split <;> rfl

theorem vblankStart_withBreak : vblankStart (s.withBreak b) = (vblankStart s).withBreak b := by
  have hppu : (s.withBreak b).ppu = s.ppu := rfl
  unfold vblankStart
  rw [hppu]
  dsimp only
  split <;> rfl

theorem boundaryStep_withBreak : boundaryStep (s.withBreak b) = (boundaryStep s).withBreak b := by
  have hppu : (s.withBreak b).ppu = s.ppu := rfl
  unfold boundaryStep
  rw [hppu, vblankStart_withBreak]
  split_ifs <;> rfl

theorem scanlineAdvance_withBreak : scanlineAdvance (s.withBreak b) = (scanlineAdvance s).withBreak b := by
  have hnext : (s.withBreak b).setPpu (s.withBreak b).ppu.nextScanline = (s.setPpu s.ppu.nextScanline).withBreak b := rfl
  unfold scanlineAdvance scanlineEvents
  rw [hnext, sprite0HitStep_withBreak, rowStep_withBreak, boundaryStep_withBreak]

end

theorem ppuLoop_withBreak : ∀ (fuel : Nat) (s : State) (b : Bool),
    ppuLoop fuel (s.withBreak b) = (ppuLoop fuel s).withBreak b
  | 0, _, _ => rfl
  | fuel + 1, s, b => by
    have hppu : (s.withBreak b).ppu = s.ppu := rfl
    unfold ppuLoop
    rw [hppu, scanlineAdvance_withBreak, ppuLoop_withBreak fuel]
    split_ifs <;> rfl

/-- `PPU.run` leaves the stored break flag alone and does not read it. -/
theorem ppuRun_withBreak (n : Nat) (s : State) (b : Bool) : ppuRun n (s.withBreak b) = (ppuRun n s).withBreak b :=
  ppuLoop_withBreak _ (s.setPpu { s.ppu with cycle := s.ppu.cycle + n }) b

theorem endStep_withBreak (i : Instr) (before after : State) (b c : Bool) :
    endStep i (before.withBreak b) (after.withBreak c) = (endStep i before after).withBreak c := by
  have hcycles : (before.withBreak b).cycles = before.cycles := rfl
  have hafter (n : Nat) : ((after.withBreak c).setCycles n).setStepped true =
      ((after.setCycles n).setStepped true).withBreak c := rfl
  simp only [endStep, cyclesOf_withBreak, hcycles, hafter, ppuRun_withBreak]

theorem step_withBreak (s : State) (b : Bool) : Agree SameButBreak (step s) (step (s.withBreak b)) :=
  (beginStep_withBreak s b).andThenState fun u c =>
    (fetchInstr_withBreak u c).andThenAnswer fun i w d =>
      (exec_withBreak w d i).andThenState fun x e => .next ⟨e, endStep_withBreak i w x d e⟩

/-- Settles O60: the steps of the two states agree part by part. -/
theorem breakFlagUnobservable : Obligations.BreakFlagUnobservable := by
  intro s b
  have h := step_withBreak s b
  generalize step s = r, step (s.withBreak b) = r' at h
  cases h with
  | next h =>
    obtain ⟨c, rfl⟩ := h
    exact .inl ⟨_, c, rfl, rfl⟩
  | fault f => exact .inr ⟨f, rfl, rfl⟩

end Sys2Proof.Machine

/-! What power-on and reset leave (10_state R57, 70_reset_and_hazards R353). -/

namespace Sys2Proof.Machine

/-- The vectors lie in program ROM: the word of one is two bus reads that change nothing (20_memory R77, R80). -/
theorem readsWord_vector (s : State) {v : Addr} (h : 0x8000 ≤ v.toNat) (h' : 0x8000 ≤ (v + 1).toNat) :
    ReadsWord s v (s.cart.vector v) :=
  ⟨_, _, busRead_rom s h, busRead_rom s h', rfl⟩

/-- Settles O8: power-on sets each piece of state, and the reset then writes P and the word at the reset vector. -/
theorem powerOnLeaves : Obligations.PowerOnLeaves := by
  refine ⟨⟨rfl, rfl, rfl, rfl, rfl, rfl⟩, fun w => ⟨⟨rfl, rfl, rfl⟩, rfl, rfl, rfl, rfl, rfl, ?_, ?_⟩⟩
  · exact readsWord_vector w.reset (v := Config.resetVector) (by decide) (by decide)
  · exact ⟨rfl, rfl, rfl, rfl, rfl, rfl, rfl, rfl, rfl⟩

end Sys2Proof.Machine

/-! The rows of the bus decoder, and RAM read through its mirrors (20_memory R64 to R76). -/

namespace Sys2Proof.Machine

/-! Address masks in plain numbers. -/

/-- Masking with `k` ones is the remainder modulo `2 ^ k`. -/
theorem toNat_and_ones (a : Addr) {m : Addr} (k : Nat) (hm : m.toNat = 2 ^ k - 1) :
    (a &&& m).toNat = a.toNat % 2 ^ k := by
  rw [BitVec.toNat_and, hm, Nat.and_two_pow_sub_one_eq_mod]

/-- The RAM index of 20_memory R66. -/
theorem toNat_and_ramMask (a : Addr) : (a &&& 0x07FF).toNat = a.toNat % 0x800 := toNat_and_ones a 11 rfl

/-- The port of an address is the one its low three bits select (20_memory R67). -/
theorem portOf_and_portMask (a : Addr) : portOf (a &&& 0x0007) = portOf a := by
  have h : (a &&& 0x0007).toNat = a.toNat % 8 := toNat_and_ones a 3 rfl
  unfold portOf
  rw [h, Nat.mod_mod]

/-- The offset into program ROM: one bank is seen twice, two banks once (20_memory R74). -/
theorem romOffset_eq (banks : Banks) {a : Addr} (h : 0x8000 ≤ a.toNat) :
    romOffset banks a = if banks = .one then (a &&& 0x3FFF).toNat else a.toNat - 0x8000 := by
  have hmask : (a &&& 0x3FFF).toNat = a.toNat % 0x4000 := toNat_and_ones a 14 rfl
  have hlt := a.isLt
  cases banks <;> simp only [romOffset, Banks.size, hmask, if_true, reduceCtorEq, if_false] <;> omega

/-! The rows of the read decoder that are neither RAM nor program ROM. -/

theorem busRead_port {a : Addr} (s : State) (h : 0x2000 ≤ a.toNat) (h' : a.toNat < 0x4000) :
    busRead a s = ppuRead (portOf a) a s := by
  simp [busRead, readTarget, Nat.not_lt.2 h, h']

theorem readTarget_eq_unmapped (a : Addr) : readTarget a = .unmapped ↔
    (0x4000 ≤ a.toNat ∧ a.toNat ≤ 0x4014) ∨ (0x4017 ≤ a.toNat ∧ a.toNat ≤ 0x7FFF) := by
  unfold readTarget
  split_ifs <;> simp only [false_iff, true_iff] <;> omega

/-- A read faults as unmapped exactly where the decoder has no row: the port that no read answers at has a fault of its
own (20_memory R76, 47_ppu_ports R259). -/
theorem busRead_eq_unmapped (a : Addr) (s : State) :
    busRead a s = .fault (.unmappedAddress (.read a)) ↔ readTarget a = .unmapped := by
  unfold busRead
  cases readTarget a with
  | port p => cases p <;> simp [ppuRead]
  | _ => simp

/-- A read of the input device gives the drawn bit as a byte (20_memory R72). -/
theorem busRead_input (s : State) : busRead 0x4016 s =
    .next (if Config.inputBit s.draws then 0x01 else 0x00, s.drawn.emit .inputRead) := by
  have hbyte : ∀ b : Bool, (BitVec.ofBool b).setWidth 8 = if b then (0x01 : Byte) else 0x00 := by decide
  rw [← hbyte]
  rfl

/-- Settles O15: row by row, RAM and program ROM at the index that the mask of their rule gives. -/
theorem busReadsDecoded : Obligations.BusReadsDecoded := by
  refine fun a s => ⟨fun h => ?_, fun h h' => ?_, ?_, ?_, fun h => ?_, ?_⟩
  · rw [busRead_ram s h, toNat_and_ramMask]
  · rw [busRead_port s h h', portOf_and_portMask]
  · rintro rfl
    exact ⟨_, rfl⟩
  · rintro rfl
    exact ⟨_, busRead_input s⟩
  · rw [busRead_rom s h, Cartridge.byte, romOffset_eq _ h]
  · rw [busRead_eq_unmapped, readTarget_eq_unmapped]

/-! The rows of the write decoder. -/

theorem busWrite_ram {a : Addr} (v : Byte) (s : State) (h : a.toNat < 0x2000) :
    busWrite a v s = .next (s.setRam (s.ram.write (a.toNat % 0x800) v)) := by
  simp [busWrite, writeTarget, h]

theorem busWrite_port {a : Addr} (v : Byte) (s : State) (h : 0x2000 ≤ a.toNat) (h' : a.toNat < 0x4000) :
    busWrite a v s = ppuWrite (portOf a) v s := by
  simp [busWrite, writeTarget, Nat.not_lt.2 h, h']

/-- The audio registers are 0x4000 to 0x401F but for the DMA trigger and the input device (20_memory R65). -/
theorem writeTarget_audio {a : Addr} (h : 0x4000 ≤ a.toNat) (h' : a.toNat ≤ 0x401F) (hdma : a ≠ 0x4014)
    (hin : a ≠ 0x4016) : writeTarget a = .audio (a.toNat - 0x4000) := by
  have hdma' : a.toNat ≠ 0x4014 := fun e => hdma (BitVec.eq_of_toNat_eq e)
  have hin' : a.toNat ≠ 0x4016 := fun e => hin (BitVec.eq_of_toNat_eq e)
  rw [writeTarget, if_neg (by omega), if_neg (by omega), if_neg hdma', if_neg hin', if_pos (by omega)]

theorem writeTarget_rom {a : Addr} (h : 0x8000 ≤ a.toNat) : writeTarget a = .rom := by
  rw [writeTarget, if_neg (by omega), if_neg (by omega), if_neg (by omega), if_neg (by omega), if_neg (by omega),
    if_pos h]

theorem writeTarget_eq_unmapped (a : Addr) : writeTarget a = .unmapped ↔ 0x4020 ≤ a.toNat ∧ a.toNat ≤ 0x7FFF := by
  unfold writeTarget
  split_ifs <;> simp only [false_iff, true_iff] <;> omega

/-- A write faults as unmapped exactly where the decoder has no row: a port write has another fault
(20_memory R76, 47_ppu_ports R252). -/
theorem busWrite_eq_unmapped (a : Addr) (v : Byte) (s : State) :
    busWrite a v s = .fault (.unmappedAddress (.write a v)) ↔ writeTarget a = .unmapped := by
  unfold busWrite
  cases writeTarget a with
  | port p =>
    simp only [ppuWrite, reduceCtorEq, iff_false]
    split <;> simp
  | _ => simp

/-- Settles O16: row by row. -/
theorem busWritesDecoded : Obligations.BusWritesDecoded := by
  refine fun a v s => ⟨fun h => ?_, fun h h' => ?_, ?_, ?_, fun h h' hdma hin => ?_, fun h => ?_, ?_⟩
  · rw [busWrite_ram v s h, toNat_and_ramMask]
    rfl
  · rw [busWrite_port v s h h', portOf_and_portMask]
  · rintro rfl
    rfl
  · rintro rfl
    rfl
  · rw [busWrite, writeTarget_audio h h' hdma hin]
    rfl
  · rw [busWrite, writeTarget_rom h]
  · rw [busWrite_eq_unmapped, writeTarget_eq_unmapped]

/-- Settles O17: two RAM addresses are mirrors exactly where their RAM indices are equal, and the store writes the one
cell of its index. -/
theorem ramReadsBackThroughMirrors : Obligations.RamReadsBackThroughMirrors := by
  intro a b v s t hwf ha hb hstore
  rw [busWrite_ram v s ha] at hstore
  cases hstore
  refine ⟨fun hmirror => ?_, fun hother => ⟨_, busRead_ram s hb, ?_⟩⟩
  · rw [busRead_ram _ hb, State.setRam_ram, hmirror, Memory.read_write_same hwf]
  · rw [busRead_ram _ hb, State.setRam_ram, Memory.read_write_ne (Ne.symm hother)]

end Sys2Proof.Machine

/-! The output history of a step (20_memory R79). -/

namespace Sys2Proof.Machine

/-- The history of `t` is that of `s` with events appended, at most `n` of them frames. -/
def AppendsFrames (n : Nat) (s t : State) : Prop :=
  ∃ es, t.events = s.events ++ es ∧ (es.filter Event.isFrame).length ≤ n

theorem AppendsFrames.of_eq {n : Nat} {s t : State} (h : t.events = s.events) : AppendsFrames n s t :=
  ⟨[], by simpa using h, Nat.zero_le n⟩

theorem AppendsFrames.mono {m n : Nat} {s t : State} (hmn : m ≤ n) : AppendsFrames m s t → AppendsFrames n s t :=
  fun ⟨es, hes, hm⟩ => ⟨es, hes, hm.trans hmn⟩

theorem AppendsFrames.trans {m n : Nat} {s t u : State} :
    AppendsFrames m s t → AppendsFrames n t u → AppendsFrames (m + n) s u := by
  rintro ⟨es, hes, hm⟩ ⟨fs, hfs, hn⟩
  refine ⟨es ++ fs, by rw [hfs, hes, List.append_assoc], ?_⟩
  rw [List.filter_append, List.length_append]
  omega

theorem AppendsFrames.emit_other {e : Event} (he : e.isFrame = false) (s : State) : AppendsFrames 0 s (s.emit e) :=
  ⟨[e], rfl, by simp [he]⟩

/-! The CPU's part of a step. -/

/-- What the CPU's part of a step does to the output and the PPU's counters: events but no frame, and neither counter
moves. -/
structure CpuOutput (s u : State) : Prop where
  appends  : AppendsFrames 0 s u
  cycle    : u.ppu.cycle = s.ppu.cycle
  scanline : u.ppu.scanline = s.ppu.scanline

theorem CpuOutput.of_same {s u v : State} (h : CpuOutput s u) (hev : v.events = u.events)
    (hcyc : v.ppu.cycle = u.ppu.cycle) (hline : v.ppu.scanline = u.ppu.scanline) : CpuOutput s v :=
  ⟨h.appends.trans (.of_eq (n := 0) hev), hcyc.trans h.cycle, hline.trans h.scanline⟩

theorem CpuOutput.cpuClosed (s : State) : CpuClosed (CpuOutput s) where
  a _ _ h := { h with }
  x _ _ h := { h with }
  y _ _ h := { h with }
  sp _ _ h := { h with }
  pc _ _ h := { h with }
  p _ _ _ h := { h with }
  ram _ _ _ _ h := { h with }
  drawn _ h := { h with }
  emit u _ he h := { h with appends := h.appends.trans (.emit_other he u) }
  statusRead _ h := { h with }
  portWrite u p v _ h :=
    have ⟨hcyc, hline, _⟩ := Ppu.writePort_renderer u.cart.mirroring u.ppu p v
    h.of_same rfl hcyc hline
  dmaWrite _ _ h := { h with }
  dmaCopy u h := by
    generalize pageBytes u.ram u.dmaPage = vs
    rw [Ppu.transferFrom_eq]
    exact { h with }
  nmi _ h := { h with }
  irq _ h := { h with }
  cycles _ _ h := { h with }
  stepped _ h := { h with }

/-! The PPU's part of a step. -/

theorem rowStep_sprite0HitStep_events (s : State) : (rowStep (sprite0HitStep s)).events = s.events := by
  have hrow : (rowStep (sprite0HitStep s)).events = (sprite0HitStep s).events := by
    rcases rowStep_cases (sprite0HitStep s) with ⟨_, e⟩ | ⟨_, e⟩ <;> rw [e]
    rfl
  rw [hrow]
  rcases sprite0HitStep_cases s with e | ⟨_, _, e⟩ <;> rw [e]
  rfl

theorem vblankStart_events (s : State) : (vblankStart s).events = s.events := by
  unfold vblankStart
  split <;> rfl

/-- Only the wrap of the frame emits, and it emits the one frame. -/
theorem boundaryStep_appends (s : State) :
    AppendsFrames (if s.ppu.scanline = 262 then 1 else 0) s (boundaryStep s) := by
  rcases boundaryStep_cases s with ⟨h, e⟩ | ⟨h, e⟩ | ⟨_, h, e⟩ <;> rw [e]
  · exact .of_eq (vblankStart_events s)
  · rw [if_pos h]
    exact ⟨[.frame s.ppu.frameRecord], rfl, le_rfl⟩
  · exact .of_eq rfl

/-- A scanline advance emits a frame from scanline 261, and nothing from another (48_ppu_rendering R277). -/
theorem scanlineAdvance_appends (s : State) :
    AppendsFrames (if s.ppu.scanline = 261 then 1 else 0) s (scanlineAdvance s) := by
  have hev : (rowStep (sprite0HitStep (s.setPpu s.ppu.nextScanline))).events = s.events := by
    rw [rowStep_sprite0HitStep_events, State.setPpu_events]
  have hline : (rowStep (sprite0HitStep (s.setPpu s.ppu.nextScanline))).ppu.scanline = s.ppu.scanline + 1 := by
    rw [(rowStep_sprite0HitStep_counters _).2, State.setPpu_ppu, Ppu.nextScanline]
  have h := (AppendsFrames.of_eq (n := 0) hev).trans (boundaryStep_appends _)
  rw [hline] at h
  simpa [scanlineAdvance, scanlineEvents] using h

/-- The run loop emits a frame for each time that its advances pass scanline 261. -/
theorem ppuLoop_appends : ∀ (fuel : Nat) (s : State),
    AppendsFrames ((s.ppu.scanline + fuel) / 262) s (ppuLoop fuel s)
  | 0, _ => .of_eq rfl
  | fuel + 1, s => by
    unfold ppuLoop
    split
    · have h := (scanlineAdvance_appends s).trans (ppuLoop_appends fuel _)
      rw [(scanlineAdvance_counters s).2] at h
      refine h.mono ?_
      split <;> omega
    · exact .of_eq rfl

/-- `PPU.run` emits a frame for each time that its scanline advances pass scanline 261. -/
theorem ppuRun_appends (n : Nat) (s : State) :
    AppendsFrames ((s.ppu.scanline + (s.ppu.cycle + n) / 341) / 262) s (ppuRun n s) :=
  ppuLoop_appends _ (s.setPpu { s.ppu with cycle := s.ppu.cycle + n })

/-! The whole step. -/

/-- At the default timing a step gives the PPU fewer dots than six scanlines take. -/
theorem step_dots_lt {s s1 s2 : State} {i : Instr} (htiming : s.env.timing = .standard) (hbegin : beginStep s = .next s1)
    (hfetch : fetchInstr s1 = .next (i, s2)) : Config.dotsPerCycle * (s2.cycles + cyclesOf i s2) < 1706 := by
  have henv : s2.env = s.env := by
    have hclosed := CpuKeeps.cpuClosed (environmentMove s)
    obtain ⟨-, hmove, -⟩ := environmentMove_keeps s
    exact (hclosed.fetchInstr hfetch (hclosed.beginStep hbegin (.refl _))).env.trans hmove
  have hcount : cyclesOf i s2 ≤ 11 := by
    rw [cyclesOf, henv, htiming]
    exact countOf_standard_le i s2
  have hstall : s2.cycles ≤ 514 := by
    have h := beginStep_cycles_le hbegin
    rw [htiming] at h
    exact (fetchInstr_cycles hfetch).trans_le h
  unfold Config.dotsPerCycle
  omega

theorem environmentMove_output (s : State) : CpuOutput s (environmentMove s) := by
  rw [environmentMove_eq]
  exact ⟨.of_eq rfl, rfl, rfl⟩

/-- The end of a step emits what `PPU.run` does, from the counters that the step began with. -/
theorem CpuOutput.endStep {s u : State} (h : CpuOutput s u) (i : Instr) (before : State) :
    AppendsFrames
      ((s.ppu.scanline + (s.ppu.cycle + Config.dotsPerCycle * (before.cycles + cyclesOf i before)) / 341) / 262)
      s (endStep i before u) := by
  have hstored : CpuOutput s ((u.setCycles (before.cycles + cyclesOf i before)).setStepped true) := { h with }
  rw [← hstored.cycle, ← hstored.scanline]
  exact (hstored.appends.trans (ppuRun_appends _ _)).mono (Nat.zero_add _).le

/-- Settles O57: the CPU's part of a step emits no frame, and the dots it leaves to the PPU pass scanline 261 at most
once. -/
theorem stepAppendsEvents : Obligations.StepAppendsEvents := by
  intro s t hstep
  obtain ⟨s1, i, s2, u, hbegin, hfetch, hexec, rfl⟩ := step_next.1 hstep
  have hclosed := CpuOutput.cpuClosed s
  have hout : CpuOutput s u :=
    hclosed.exec hexec (hclosed.fetchInstr hfetch (hclosed.beginStep hbegin (environmentMove_output s)))
  obtain ⟨es, hes, hframes⟩ := hout.endStep i s2
  refine ⟨es, hes, fun htiming hcyc hline => hframes.trans ?_⟩
  have hdots := step_dots_lt htiming hbegin hfetch
  omega

end Sys2Proof.Machine

/-! The decoder and the encoder are inverse to each other (30_encoding R100, R102, R123). -/

namespace Sys2Proof.Machine

/-- Settles O1: the decoder computes each of them. -/
theorem decodesSampleWords : Obligations.DecodesSampleWords :=
  ⟨rfl, rfl, rfl, rfl, rfl, rfl, rfl, rfl, rfl, rfl, rfl, rfl, rfl, rfl, rfl, rfl, rfl, rfl⟩

/-! From bytes to a term and back to bytes: the columns of the opcode table. -/

/-- A column of the opcode table, looked up where `rowOf` looks its row up: every byte has a row there. -/
theorem rowOf_column {α : Type} (f : OpRow → α) (d : α) (op : Byte) :
    f (rowOf op) = ((opcodeTable.map (List.map f)).getD (op.toNat / 16) []).getD (op.toNat % 16) d := by
  have hrows : ∀ n < 16, (opcodeTable.getD n []).length = 16 := by decide
  have hhigh := hrows (op.toNat / 16) (by have := op.isLt; omega)
  have hlow : op.toNat % 16 < (opcodeTable.getD (op.toNat / 16) []).length := by omega
  rw [← List.map_nil (f := f), List.getD_map, rowOf, List.getD_eq_getElem (List.map f _) _ (by rwa [List.length_map]),
    List.getElem_map, List.getD_eq_getElem _ _ hlow]

/-- What two columns have in common from top to bottom they have in every row. -/
theorem rowOf_congr {α : Type} {f g : OpRow → α} (h : opcodeTable.map (List.map f) = opcodeTable.map (List.map g))
    (op : Byte) : f (rowOf op) = g (rowOf op) := by
  rw [rowOf_column f (f (rowOf op)), h, ← rowOf_column]

theorem wellFormed_instrOf (op b1 b2 : Byte) : (instrOf op b1 b2).wellFormed = true :=
  rowOf_congr (f := fun r => (r.instr b1 b2).wellFormed) (g := fun _ => true) rfl op

/-- The encoder's opcode bytes, read along the decoder's table, count from 0x00 to 0xFF. -/
theorem opcode_instrOf (op b1 b2 : Byte) : (instrOf op b1 b2).opcode = some op := by
  have hcolumn : opcodeTable.map (List.map fun r => (r.instr b1 b2).opcode) =
      (List.range 16).map fun hi => (List.range 16).map fun lo => some (BitVec.ofNat 8 (16 * hi + lo)) := rfl
  have hcount : ∀ op : Byte, (((List.range 16).map fun hi => (List.range 16).map fun lo =>
      some (BitVec.ofNat 8 (16 * hi + lo))).getD (op.toNat / 16) []).getD (op.toNat % 16) none = some op := by
    decide
  rw [instrOf, rowOf_column (fun r => (r.instr b1 b2).opcode) none, hcolumn, hcount]

/-- The encoder's operand bytes for a row with `n` of them. -/
def rowOperands (n : Nat) (b1 b2 : Byte) : List Byte :=
  match n with
  | 0 => []
  | 1 => [b1]
  | _ => wordBytes (joinBytes b2 b1)

theorem operandBytes_instrOf (op b1 b2 : Byte) :
    (instrOf op b1 b2).operandBytes = rowOperands (operandCount op) b1 b2 :=
  rowOf_congr (f := fun r => (r.instr b1 b2).operandBytes) (g := fun r => rowOperands r.operands b1 b2) rfl op

theorem encode_instrOf (op b1 b2 : Byte) :
    encode (instrOf op b1 b2) = op :: rowOperands (operandCount op) b1 b2 := by
  rw [encode, opcode_instrOf, operandBytes_instrOf]

/-- Settles O3: each of the three forms that decode answers by encodes to the bytes it was read from. -/
theorem encodeInvertsDecode : Obligations.EncodeInvertsDecode := by
  intro bs rest i h
  obtain ⟨op, hcount, rfl, rfl⟩ | ⟨op, b, hcount, rfl, rfl⟩ | ⟨op, lo, hi, hcount, rfl, rfl⟩ := decode_ok h
  all_goals refine ⟨wellFormed_instrOf .., ?_⟩; rw [encode_instrOf, hcount]
  · rfl
  · rfl
  · simp [rowOperands, wordBytes]

/-! From a term to the bytes that decode to it. -/

theorem exists_joinBytes (w : Addr) : ∃ hi lo, joinBytes hi lo = w := ⟨_, _, joinBytes_split w⟩

/-- A well-formed term has an opcode byte: for all but the two kinds of term that carry theirs, the encoder has a code
exactly where the term is well-formed. -/
theorem exists_opcode {i : Instr} (h : i.wellFormed = true) : ∃ op, i.opcode = some op := by
  refine Option.isSome_iff_exists.1 ?_
  cases i with
  | nopU | illegal => rfl
  | lda o | ldx o | ldy o | adc o | sbc o | and o | ora o | eor o | cmp o | cpx o | cpy o =>
    cases o with
    | imm v => exact h
    | mem m => cases m <;> exact h
  | asl o | lsr o | rol o | ror o =>
    cases o with
    | acc => exact h
    | mem m => cases m <;> exact h
  | sta m | stx m | sty m | bit m | inc m | dec m | lax m | sax m | dcp m | isb m | slo m | rla m | sre m | rra m =>
    cases m <;> exact h
  | jmp t => cases t <;> rfl
  | _ => rfl

/-- The rows of the undocumented NOP forms. -/
theorem exists_decode_nopU {op : Byte} {o : NopOperand} (h : (Instr.nopU op o).wellFormed = true) (rest : List Byte) :
    ∃ bs, decode (op :: bs) = .ok (.nopU op o, rest) := by
  have hop : op ∈ nopOpcodes o.mode := List.contains_iff_mem.1 h
  cases o with
  | implied => fin_cases hop <;> exact ⟨rest, rfl⟩
  | imm v => fin_cases hop <;> exact ⟨v :: rest, rfl⟩
  | mem m =>
    cases m with
    | zp z | zpX z | zpY z | indX z | indY z => fin_cases hop <;> exact ⟨z :: rest, rfl⟩
    | abs w | absX w | absY w =>
      obtain ⟨hi, lo, rfl⟩ := exists_joinBytes w
      fin_cases hop <;> exact ⟨lo :: hi :: rest, rfl⟩

/-- Every well-formed term is decoded from its opcode byte and some bytes after it. -/
theorem exists_decode {i : Instr} {op : Byte} (hop : i.opcode = some op) (h : i.wellFormed = true) (rest : List Byte) :
    ∃ bs, decode (op :: bs) = .ok (i, rest) := by
  cases i
  case nopU op' o => cases hop; exact exists_decode_nopU h rest
  case illegal op' =>
    cases hop
    have hillegal : op ∈ illegalOpcodes := List.contains_iff_mem.1 h
    fin_cases hillegal <;> exact ⟨rest, rfl⟩
  case' lda o | ldx o | ldy o | adc o | sbc o | and o | ora o | eor o | cmp o | cpx o | cpy o => cases o
  case' asl o | lsr o | rol o | ror o => cases o
  case' jmp t => cases t
  case lda.mem m | ldx.mem m | ldy.mem m | adc.mem m | sbc.mem m | and.mem m | ora.mem m | eor.mem m | cmp.mem m |
      cpx.mem m | cpy.mem m | asl.mem m | lsr.mem m | rol.mem m | ror.mem m | sta m | stx m | sty m | bit m | inc m |
      dec m | lax m | sax m | dcp m | isb m | slo m | rla m | sre m | rra m =>
    cases m with
    | zp z | zpX z | zpY z | indX z | indY z => cases hop <;> exact ⟨z :: rest, rfl⟩
    | abs w | absX w | absY w =>
      obtain ⟨hi, lo, rfl⟩ := exists_joinBytes w
      cases hop <;> exact ⟨lo :: hi :: rest, rfl⟩
  case jmp.abs w | jmp.ind w | jsr w =>
    obtain ⟨hi, lo, rfl⟩ := exists_joinBytes w
    cases hop; exact ⟨lo :: hi :: rest, rfl⟩
  case lda.imm v | ldx.imm v | ldy.imm v | adc.imm v | sbc.imm v | and.imm v | ora.imm v | eor.imm v | cmp.imm v |
      cpx.imm v | cpy.imm v | sbcU v | bcc v | bcs v | beq v | bne v | bmi v | bpl v | bvc v | bvs v =>
    cases hop; exact ⟨v :: rest, rfl⟩
  all_goals cases hop; exact ⟨rest, rfl⟩

/-- Settles O2: some bytes decode to the term, and what decodes encodes to the bytes it came from. -/
theorem decodeInvertsEncode : Obligations.DecodeInvertsEncode := by
  intro i rest h
  obtain ⟨op, hop⟩ := exists_opcode h
  obtain ⟨bs, hdecode⟩ := exists_decode hop h rest
  obtain ⟨-, hencode⟩ := encodeInvertsDecode _ _ _ hdecode
  rw [hencode, hdecode]

end Sys2Proof.Machine

/-! Effective addresses in plain arithmetic (30_encoding R107 to R115). -/

namespace Sys2Proof.Machine

/-- Page zero is RAM, cell by cell. -/
theorem busRead_zeroPage (b : Byte) (s : State) :
    busRead (BitVec.ofNat 16 b.toNat) s = .next (s.ram.read b.toNat, s) := by
  have hb := b.isLt
  have haddr : (BitVec.ofNat 16 b.toNat).toNat = b.toNat := by rw [BitVec.toNat_ofNat]; omega
  rw [busRead_ram s (by omega), haddr, Nat.mod_eq_of_lt (by omega)]

/-- A pointer in page zero is two bus reads, the second address wrapped to page zero (20_memory R81). -/
theorem readZP16_reads (z : Byte) (s : State) : ∃ lo hi,
    busRead (BitVec.ofNat 16 z.toNat) s = .next (lo, s) ∧
    busRead (BitVec.ofNat 16 ((z.toNat + 1) % 256)) s = .next (hi, s) ∧ readZP16 z s = joinBytes hi lo :=
  ⟨_, _, busRead_zeroPage z s, busRead_zeroPage (z + 1) s, rfl⟩

theorem toNat_add_byte (w : Addr) (b : Byte) : (w + b.setWidth 16).toNat = (w.toNat + b.toNat) % 65536 := by
  rw [BitVec.toNat_add, BitVec.toNat_setWidth_of_le (by decide)]

/-- An index leaves the page of its base exactly where it overflows the low byte. -/
theorem hiByte_add_byte_ne (w : Addr) (b : Byte) :
    hiByte (w + b.setWidth 16) ≠ hiByte w ↔ 256 ≤ w.toNat % 256 + b.toNat := by
  have hw := w.isLt
  have hb := b.isLt
  rw [ne_eq, ← BitVec.toNat_inj, toNat_hiByte, toNat_hiByte, toNat_add_byte]
  omega

theorem crossed_absX (w : Addr) (s : State) : crossed (.absX w) s = true ↔ 256 ≤ w.toNat % 256 + s.x.toNat := by
  rw [crossed, decide_eq_true_iff, effAddr, hiByte_add_byte_ne]

theorem crossed_absY (w : Addr) (s : State) : crossed (.absY w) s = true ↔ 256 ≤ w.toNat % 256 + s.y.toNat := by
  rw [crossed, decide_eq_true_iff, effAddr, hiByte_add_byte_ne]

theorem crossed_indY (z : Byte) (s : State) :
    crossed (.indY z) s = true ↔ 256 ≤ (readZP16 z s).toNat % 256 + s.y.toNat := by
  rw [crossed, decide_eq_true_iff, effAddr, hiByte_add_byte_ne]

/-- Settles O34: an indexed sum is taken in the width of its base, and a pointer's bytes are reads of page zero. -/
theorem effectiveAddresses : Obligations.EffectiveAddresses := by
  intro z w s
  have hzp : ∀ b : Byte, (b.setWidth 16).toNat = b.toNat := fun _ => BitVec.toNat_setWidth_of_le (by decide)
  refine ⟨hzp z, hzp (z + s.x), hzp (z + s.y), rfl, toNat_add_byte w s.x, toNat_add_byte w s.y, ?_, ?_,
    crossed_absX w s, crossed_absY w s, rfl, rfl, rfl, rfl, rfl⟩
  · obtain ⟨lo, hi, hlo, hhi, hptr⟩ := readZP16_reads (z + s.x) s
    rw [BitVec.toNat_add] at hlo hhi
    rw [Nat.mod_add_mod] at hhi
    exact ⟨lo, hi, hlo, hhi, by rw [effAddr, hptr, toNat_joinBytes]⟩
  · obtain ⟨lo, hi, hlo, hhi, hptr⟩ := readZP16_reads z s
    refine ⟨lo, hi, hlo, hhi, ?_, ?_⟩
    · rw [effAddr, toNat_add_byte, hptr, toNat_joinBytes]
    · have hlt := lo.isLt
      rw [crossed_indY, hptr, toNat_joinBytes]
      omega

end Sys2Proof.Machine

/-! The cycle counts (30_encoding R118, R121). -/

namespace Sys2Proof.Machine

/-! What a count is made of. -/

/-- A branch has no memory operand, and two base cycles. -/
theorem branchForm_row {i : Instr} {p : Flags} {e : Byte × Bool} (h : branchForm i p = some e) :
    memForm i = none ∧ ∃ op, i.opcode = some op ∧ baseCycles op = 2 := by
  unfold branchForm at h
  split at h
  case h_9 => cases h
  all_goals exact ⟨rfl, _, rfl, rfl⟩

theorem branchForm_of_memForm {i : Instr} {m : AddrMode} (hm : memForm i = some m) (p : Flags) :
    branchForm i p = none := by
  cases hb : branchForm i p with
  | none => rfl
  | some e => rw [(branchForm_row hb).1] at hm; cases hm

theorem countOf_memory {i : Instr} {op : Byte} {m : AddrMode} (hop : i.opcode = some op) (hm : memForm i = some m)
    (t : Timing) (s : State) :
    countOf t i s = t.baseOf op + if t.penaltyOf op && crossed m s then 1 else 0 := by
  simp only [countOf, hop, pageCycles, hm, branchCycles, branchForm_of_memForm hm, Nat.add_zero]

theorem countOf_noMemory {i : Instr} {op : Byte} (hop : i.opcode = some op) (hm : memForm i = none) (t : Timing)
    (s : State) : countOf t i s = t.baseOf op + branchCycles i s := by
  simp only [countOf, hop, pageCycles, hm, Nat.add_zero]

/-- Where an instruction has neither a memory operand nor a branch's displacement, the count is the table's. -/
theorem countOf_plain {i : Instr} {op : Byte} (hop : i.opcode = some op) (hm : memForm i = none) {s : State}
    (hb : branchForm i s.p = none) (t : Timing) : countOf t i s = t.baseOf op := by
  simp only [countOf_noMemory hop hm, branchCycles, hb, Nat.add_zero]

theorem crossed_zeroPage {m : AddrMode} (h : m.mode ∈ [.zeropage, .zeropageX, .zeropageY]) (s : State) :
    crossed m s = false := by
  cases m with
  | zp | zpX | zpY | abs | indX => rfl
  | absX | absY | indY => simp [AddrMode.mode] at h

theorem immediates_plain {i : Instr} {v : Byte} (hi : i ∈ immediates v) (p : Flags) :
    memForm i = none ∧ branchForm i p = none := by
  fin_cases hi <;> exact ⟨rfl, rfl⟩

/-! The rows of the memory forms in the opcode table: a base count, and whether a page cross adds a cycle. -/

/-- The row of a reading form. -/
def readRow (m : AddrMode) : Nat × Bool :=
  match m with
  | .zp _ => (3, false)
  | .zpX _ | .zpY _ | .abs _ => (4, false)
  | .absX _ | .absY _ => (4, true)
  | .indX _ => (6, false)
  | .indY _ => (5, true)

theorem readCount_eq (m : AddrMode) (s : State) :
    readCount m s = (readRow m).1 + if (readRow m).2 && crossed m s then 1 else 0 := by
  cases m with
  | zp | zpX | zpY | abs | indX => rfl
  | absX w => simp only [readCount, readRow, Bool.true_and, crossed_absX]; split <;> rfl
  | absY w => simp only [readCount, readRow, Bool.true_and, crossed_absY]; split <;> rfl
  | indY z => simp only [readCount, readRow, Bool.true_and]; split <;> rfl

/-- The count of a memory form at the default timing, by its row. -/
theorem countOf_standard_memory {i : Instr} {op : Byte} {m : AddrMode} {row : Nat × Bool} (hop : i.opcode = some op)
    (hrow : memForm i = some m ∧ (baseCycles op, pagePenalty op) = row) (s : State) :
    countOf .standard i s = row.1 + if row.2 && crossed m s then 1 else 0 := by
  obtain ⟨hm, rfl⟩ := hrow
  rw [countOf_memory hop hm, Timing.standard_baseOf, Timing.standard_penaltyOf]

/-- Checked for each reading instruction in each mode. -/
theorem readers_row {m : AddrMode} {i : Instr} {op : Byte} (hi : i ∈ readers m) (hop : i.opcode = some op) :
    memForm i = some m ∧ (baseCycles op, pagePenalty op) = readRow m := by
  cases m <;> fin_cases hi <;> cases hop <;> exact ⟨rfl, rfl⟩

theorem nopU_row {m : AddrMode} {op : Byte} (h : (Instr.nopU op (.mem m)).wellFormed = true) :
    memForm (.nopU op (.mem m)) = some m ∧ (baseCycles op, pagePenalty op) = readRow m := by
  have hop : op ∈ nopOpcodes m.mode := List.contains_iff_mem.1 h
  cases m <;> fin_cases hop <;> exact ⟨rfl, rfl⟩

/-- A store pays for its index whether it leaves the page or not. -/
theorem stores_row {m : AddrMode} {i : Instr} {op : Byte} (hi : i ∈ [Instr.sta m, .stx m, .sty m, .sax m])
    (hop : i.opcode = some op) : memForm i = some m ∧ (baseCycles op, pagePenalty op) = (storeCount m, false) := by
  cases m <;> fin_cases hi <;> cases hop <;> exact ⟨rfl, rfl⟩

/-- So does a read-modify-write. -/
theorem modifiers_row {m : AddrMode} {i : Instr} {op : Byte} (hi : i ∈ modifiers m) (hop : i.opcode = some op) :
    memForm i = some m ∧ (baseCycles op, pagePenalty op) = (modifyCount m, false) := by
  cases m <;> fin_cases hi <;> cases hop <;> exact ⟨rfl, rfl⟩

/-! Branches. -/

/-- The target of a branch in plain arithmetic (30_encoding R116). -/
theorem branchTarget_eq (d : Byte) (s : State) : branchTarget d s = BitVec.ofInt 16 ((s.pc.toNat : Int) + d.toInt) := by
  rw [BitVec.ofInt_add, BitVec.ofInt_natCast, BitVec.ofNat_toNat, BitVec.setWidth_eq, branchTarget, BitVec.signExtend]

theorem countOf_standard_branch {i : Instr} {d : Byte} {taken : Bool} {s : State}
    (h : branchForm i s.p = some (d, taken)) :
    countOf .standard i s = if taken = false then 2
      else if hiByte (BitVec.ofInt 16 ((s.pc.toNat : Int) + d.toInt)) = hiByte s.pc then 3 else 4 := by
  obtain ⟨hm, op, hop, hbase⟩ := branchForm_row h
  rw [countOf_noMemory hop hm, Timing.standard_baseOf, hbase, branchCycles, h, ← branchTarget_eq]
  cases taken with
  | false => rfl
  | true =>
    by_cases hpage : hiByte (branchTarget d s) = hiByte s.pc <;> simp [branchCrossed, hpage]

/-! The bounds of a count. -/

/-- A row that pays for a page cross leaves room for it. -/
theorem baseCycles_le_of_pagePenalty : ∀ op : Byte, pagePenalty op = true → baseCycles op ≤ 5 := by decide

/-- Only a byte without a table entry has a count below two. -/
theorem instrOf_of_baseCycles_lt : ∀ op : Byte, baseCycles op < 2 →
    operandCount op = 0 ∧ instrOf op 0 0 = .illegal op := by decide

theorem two_le_baseCycles {i : Instr} {op : Byte} (hop : i.opcode = some op) (h : i.wellFormed = true)
    (hlegal : ∀ op, i ≠ .illegal op) : 2 ≤ baseCycles op := by
  by_contra hlt
  obtain ⟨hcount, hillegal⟩ := instrOf_of_baseCycles_lt op (by omega)
  obtain ⟨bs, hdecode⟩ := exists_decode hop h []
  rw [decode_zero hcount, hillegal] at hdecode
  cases hdecode
  exact hlegal op rfl

/-- At the default timing an instruction takes at most eight cycles. -/
theorem countOf_standard_le_eight (i : Instr) (s : State) : countOf .standard i s ≤ 8 := by
  cases hop : i.opcode with
  | none => simp [countOf, hop]
  | some op =>
    have hbase := baseCycles_le op
    cases hm : memForm i with
    | some m =>
      rw [countOf_memory hop hm, Timing.standard_baseOf, Timing.standard_penaltyOf]
      cases hpen : pagePenalty op with
      | false => exact hbase
      | true => have := baseCycles_le_of_pagePenalty op hpen; split <;> omega
    | none =>
      cases hb : branchForm i s.p with
      | none => rw [countOf_plain hop hm hb, Timing.standard_baseOf]; exact hbase
      | some e => rw [countOf_standard_branch hb]; split_ifs <;> omega

/-- Settles O35: a memory form's count is its row's and its page cycle, a branch's its row's and its branch cycles, any
other its row's. -/
theorem cycleCounts : Obligations.CycleCounts := by
  refine ⟨?_, ?_, fun op => ⟨Timing.standard_baseOf op, Timing.standard_penaltyOf op⟩, ?_, ?_, ?_, ?_, ?_, ?_, ?_, ?_,
    ?_, ?_⟩
  · intro i op s m _ hop hm hmode
    simp [cyclesOf, countOf_memory hop hm, crossed_zeroPage hmode]
  · intro i op s v hi hop
    obtain ⟨hm, hb⟩ := immediates_plain hi s.p
    exact countOf_plain hop hm hb _
  · intro i s h hlegal
    obtain ⟨op, hop⟩ := exists_opcode h
    have hbase := two_le_baseCycles hop h hlegal
    refine ⟨?_, countOf_standard_le_eight i s⟩
    simp only [countOf, hop, Timing.standard_baseOf]
    omega
  · intro v s i hi
    fin_cases hi <;> rfl
  · intro m s i hi h
    obtain ⟨op, hop⟩ := exists_opcode h
    rw [countOf_standard_memory hop (readers_row hi hop), readCount_eq]
  · intro op m s h
    rw [countOf_standard_memory rfl (nopU_row h), readCount_eq]
  · intro op s h
    have hop : op ∈ nopOpcodes .implied := List.contains_iff_mem.1 h
    fin_cases hop <;> rfl
  · intro m s i hi h
    obtain ⟨op, hop⟩ := exists_opcode h
    exact countOf_standard_memory hop (stores_row hi hop) s
  · intro m s i hi h
    obtain ⟨op, hop⟩ := exists_opcode h
    exact countOf_standard_memory hop (modifiers_row hi hop) s
  · intro s i hi
    fin_cases hi <;> rfl
  · exact fun w s => ⟨rfl, rfl, rfl, rfl, rfl, rfl⟩
  · intro d s e he
    fin_cases he <;> exact countOf_standard_branch rfl

end Sys2Proof.Machine

/-! One machine step, whole (49_dma_sequencer R306, 30_encoding R101, 60_exceptions R320 to R330). -/

namespace Sys2Proof.Machine

/-! The fetch. -/

theorem fetchByte_of_busRead {s u : State} {v : Byte} (h : busRead s.pc s = .next (v, u)) :
    fetchByte s = .next (v, u.setPc (u.pc + 1)) := by
  rw [fetchByte, h, Res.andThen_next]

theorem fetchByte_of_fault {s : State} {f : Fault} (h : busRead s.pc s = .fault f) : fetchByte s = .fault f := by
  rw [fetchByte, h, Res.andThen_fault]

theorem fetchesBytes_cons {v : Byte} {vs : List Byte} {s t : State} (h : FetchesBytes (v :: vs) s t) :
    ∃ u, fetchByte s = .next (v, u) ∧ FetchesBytes vs u t := by
  obtain ⟨u, hread, hrest⟩ := h
  exact ⟨_, fetchByte_of_busRead hread, hrest⟩

/-- The bytes of an instruction, fetched one by one, are fetched as the instruction. -/
theorem fetchInstr_of_decode {bs : List Byte} {i : Instr} {s t : State} (hdecode : decode bs = .ok (i, []))
    (hfetch : FetchesBytes bs s t) : fetchInstr s = .next (i, t) := by
  obtain ⟨op, hcount, rfl, rfl⟩ | ⟨op, b, hcount, rfl, rfl⟩ | ⟨op, lo, hi, hcount, rfl, rfl⟩ := decode_ok hdecode
  all_goals obtain ⟨u, hop, hfetch⟩ := fetchesBytes_cons hfetch
  · cases hfetch
    simp [fetchInstr, hop, hcount, fetchOperands]
  · obtain ⟨u1, hb, hfetch⟩ := fetchesBytes_cons hfetch
    cases hfetch
    simp [fetchInstr, hop, hcount, fetchOperands, hb]
  · obtain ⟨u1, hlo, hfetch⟩ := fetchesBytes_cons hfetch
    obtain ⟨u2, hhi, hfetch⟩ := fetchesBytes_cons hfetch
    cases hfetch
    simp [fetchInstr, hop, hcount, fetchOperands, hlo, hhi]

/-- Decoding fails where the bytes end before the opcode, or before the last operand byte. -/
theorem decode_error {bs : List Byte} {e : DecodeError} (h : decode bs = .error e) :
    bs = [] ∨ (∃ op, operandCount op = 1 ∧ bs = [op]) ∨ (∃ op, operandCount op = 2 ∧ bs = [op]) ∨
      ∃ op b, operandCount op = 2 ∧ bs = [op, b] := by
  cases bs with
  | nil => exact .inl rfl
  | cons op tail =>
    have hle := operandCount_le op
    match hcount : operandCount op, tail with
    | 0, tail => rw [decode_zero hcount] at h; cases h
    | 1, [] => exact .inr (.inl ⟨op, hcount, rfl⟩)
    | 1, b :: tail => rw [decode_one hcount] at h; cases h
    | 2, [] => exact .inr (.inr (.inl ⟨op, hcount, rfl⟩))
    | 2, [b] => exact .inr (.inr (.inr ⟨op, b, hcount, rfl⟩))
    | 2, lo :: hi :: tail => rw [decode_two hcount] at h; cases h
    | n + 3, _ => omega

/-- A fetch that faults before the last byte of the instruction stops with its fault. -/
theorem fetchInstr_of_fault {bs : List Byte} {e : DecodeError} {f : Fault} {s t : State}
    (hdecode : decode bs = .error e) (hfetch : FetchesBytes bs s t) (hfault : busRead t.pc t = .fault f) : fetchInstr s = .fault f := by
  have hstop := fetchByte_of_fault hfault
  obtain rfl | ⟨op, hcount, rfl⟩ | ⟨op, hcount, rfl⟩ | ⟨op, b, hcount, rfl⟩ := decode_error hdecode
  · cases hfetch
    simp [fetchInstr, hstop]
  · obtain ⟨u, hop, hfetch⟩ := fetchesBytes_cons hfetch
    cases hfetch
    simp [fetchInstr, hop, hcount, fetchOperands, hstop]
  · obtain ⟨u, hop, hfetch⟩ := fetchesBytes_cons hfetch
    cases hfetch
    simp [fetchInstr, hop, hcount, fetchOperands, hstop]
  · obtain ⟨u, hop, hfetch⟩ := fetchesBytes_cons hfetch
    obtain ⟨u1, hb, hfetch⟩ := fetchesBytes_cons hfetch
    cases hfetch
    simp [fetchInstr, hop, hcount, fetchOperands, hb, hstop]

/-- A byte of RAM or program ROM is read without any effect (20_memory R91). -/
theorem busRead_of_codeByte {s : State} {a : Addr} {v : Byte} (h : codeByte s a = some v) :
    busRead a s = .next (v, s) := by
  unfold codeByte at h
  unfold busRead
  cases htarget : readTarget a <;> rw [htarget] at h <;> cases h <;> rfl

theorem holdsCode_setPc {s : State} {pc : Addr} : ∀ {bs : List Byte} {a : Addr}, holdsCode s a bs →
    holdsCode (s.setPc pc) a bs
  | [], _, _ => trivial
  | _ :: _, _, ⟨hbyte, hrest⟩ => ⟨hbyte, holdsCode_setPc hrest⟩

/-- Bytes that stand at the pc in RAM or program ROM are fetched, and the pc ends past them. -/
theorem fetchesBytes_of_holdsCode : ∀ {bs : List Byte} {s : State}, holdsCode s s.pc bs →
    FetchesBytes bs s (s.setPc (s.pc + BitVec.ofNat 16 bs.length))
  | [], s, _ => by simp [FetchesBytes, State.setPc]
  | v :: vs, s, ⟨hbyte, hrest⟩ => by
    refine ⟨s, busRead_of_codeByte hbyte, ?_⟩
    have hnext := fetchesBytes_of_holdsCode (s := s.setPc (s.pc + 1)) (holdsCode_setPc hrest)
    have hpc : s.pc + 1 + BitVec.ofNat 16 vs.length = s.pc + BitVec.ofNat 16 (vs.length + 1) := by
      rw [BitVec.ofNat_add, BitVec.add_comm (BitVec.ofNat 16 vs.length), BitVec.add_assoc]
      rfl
    rwa [State.setPc_pc, hpc] at hnext

/-! The step around the fetch. -/

theorem step_of_fetch {s s1 s2 : State} {i : Instr} (hbegin : beginStep s = .next s1)
    (hfetch : fetchInstr s1 = .next (i, s2)) :
    step s = Res.andThen (exec i s2) fun t => .next (endStep i s2 t) := by
  rw [step, hbegin, Res.andThen_next, hfetch, Res.andThen_next]

theorem step_of_fetch_fault {s s1 : State} {f : Fault} (hbegin : beginStep s = .next s1)
    (hfetch : fetchInstr s1 = .fault f) : step s = .fault f := by
  rw [step, hbegin, Res.andThen_next, hfetch, Res.andThen_fault]

/-- The step up to the fetch, in a state without a fault mark, from what the DMA part answers. -/
theorem beginStep_unmarked {s : State} (h : s.faulted = none) :
    beginStep s = (dmaStep (environmentMove s)).andThen fun s1 => .next (pollInterrupts s1) := by
  simp only [beginStep, h]

theorem environmentMove_kept (s : State) : (environmentMove s).dmaPending = s.dmaPending ∧
    (environmentMove s).dmaPage = s.dmaPage ∧ (environmentMove s).env = s.env := by
  rw [environmentMove_eq]
  exact ⟨rfl, rfl, rfl⟩

theorem dmaRun_inRam {s : State} (h : s.dmaPage.toNat < 8) : ∃ u, dmaRun s = .next u := by
  rw [dmaRun, if_neg (by omega)]
  exact ⟨_, rfl⟩

theorem dmaRun_outsideRam {s : State} (h : 8 ≤ s.dmaPage.toNat) :
    dmaRun s = .fault (.dmaSourceOutOfRange s.dmaPage) := by
  rw [dmaRun, if_pos (by omega)]

theorem dmaStep_idle {s : State} (h : s.dmaPending = false) : dmaStep s = .next { s with cycles := 0 } := by
  rw [dmaStep, if_neg (by simp [h])]
  rfl

theorem dmaStep_pending {s : State} (h : s.dmaPending = true) :
    dmaStep s = (dmaRun s).andThen fun u => .next { u with cycles := s.env.timing.dmaStall } := by
  rw [dmaStep, if_pos h]
  rfl

/-- Inside the scanline `PPU.run` has nothing to do. -/
theorem ppuRun_zero_within {s : State} (h : s.ppu.cycle < 341) : ppuRun 0 s = s := by
  rw [ppuRun, Nat.add_zero, Nat.div_eq_of_lt (show s.ppu.cycle < Config.dotsPerScanline from h)]
  rfl

/-- Past the scanline `PPU.run` is one advance, then `PPU.run` again. -/
theorem ppuRun_zero_advance {s : State} (h : 341 ≤ s.ppu.cycle) : ppuRun 0 s = ppuRun 0 (scanlineAdvance s) := by
  have hloop : ∀ t : State, ppuRun 0 t = ppuLoop (t.ppu.cycle / 341) t := fun _ => rfl
  have hfuel : s.ppu.cycle / 341 = (s.ppu.cycle - 341) / 341 + 1 := by omega
  rw [hloop, hloop, (scanlineAdvance_counters s).1, hfuel, ppuLoop, Config.dotsPerScanline, if_pos h]

/-- The dots are counted before the loop runs. -/
theorem ppuRun_eq_zero (n : Nat) (s : State) :
    ppuRun n s = ppuRun 0 { s with ppu := { s.ppu with cycle := s.ppu.cycle + n } } := rfl

/-- Settles O4: the fetch reads the bytes that decode, or stops with the read that faults; around it a step is its
parts. -/
theorem stepRunsDecoded : Obligations.StepRunsDecoded := by
  refine ⟨?_, ?_, ?_, ?_, ?_, fun _ _ _ => rfl, ?_⟩
  · intro s s1 i bs hbegin hdecode hcode
    exact step_of_fetch hbegin (fetchInstr_of_decode hdecode (fetchesBytes_of_holdsCode hcode))
  · intro s s1 s2 i bs hbegin hdecode hfetch
    exact step_of_fetch hbegin (fetchInstr_of_decode hdecode hfetch)
  · intro s s1 s2 bs e f hbegin hdecode hfetch hfault
    exact step_of_fetch_fault hbegin (fetchInstr_of_fault hdecode hfetch hfault)
  · intro s s1 hbegin hpc
    have hfault := (busRead_eq_unmapped s1.pc s1).2 ((readTarget_eq_unmapped s1.pc).2 hpc)
    exact step_of_fetch_fault hbegin (fetchInstr_of_fault (bs := []) rfl rfl hfault)
  · intro s hmark
    obtain ⟨hpending, hpage, henv⟩ := environmentMove_kept s
    rw [beginStep_unmarked hmark, ← hpending, ← hpage, ← henv]
    refine ⟨fun hidle => ?_, fun hdma hram => ?_, fun hdma hram => ?_⟩
    · rw [dmaStep_idle hidle, Res.andThen_next]
    · obtain ⟨u, hu⟩ := dmaRun_inRam hram
      exact ⟨u, hu, by rw [dmaStep_pending hdma, hu, Res.andThen_next, Res.andThen_next]⟩
    · rw [dmaStep_pending hdma, dmaRun_outsideRam hram, Res.andThen_fault, Res.andThen_fault]
  · intro n s fed
    have hfed : ppuRun n s = ppuRun 0 fed := ppuRun_eq_zero n s
    rw [hfed]
    exact ⟨ppuRun_zero_within (s := fed), fun h _ => ppuRun_zero_advance (s := fed) h⟩

end Sys2Proof.Machine

/-! Loads and stores: a load is one read of its operand and then its register, N and Z; a store is one bus write
(40_load_store R130 to R136, 46_undocumented R222, R223). -/

namespace Sys2Proof.Machine

/-! What each load and each store does. -/

/-- N and Z as the model sets them, in plain numbers: bit 7 says that the byte is 0x80 or more. -/
theorem Flags.setNZ_eq_ofResult (p : Flags) (v : Byte) : p.setNZ v = p.ofResult v := by
  have hn : v.getLsbD 7 = decide (0x80 ≤ v.toNat) := v.msb_eq_getLsbD_last.symm.trans v.msb_eq_decide
  have hz : v = 0 ↔ v.toNat = 0 := BitVec.toNat_inj.symm
  simp only [Flags.setNZ, Flags.ofResult, hn, hz]

theorem State.setNZ_eq_ofResult (s : State) (v : Byte) : s.setNZ v = { s with p := s.p.ofResult v } :=
  congrArg s.setP (s.p.setNZ_eq_ofResult v)

/-- An instruction that is its operand's read and then an update runs wherever the operand answers. -/
theorem ReadRuns.of_reading {i : Instr} {o : Operand} {f : Byte × State → State} {post : Byte → State → State} {s : State}
    (hexec : exec i s = Res.andThen (readOperand o s) (fun r => .next (f r))) (hpost : ∀ v t, f (v, t) = post v t)
    (h : operandReadable o s = true) : ReadRuns i o post s := by
  obtain ⟨v, t, hread⟩ := (readOperand_readable o s).1 h
  exact ⟨v, t, hread, by rw [hexec, hread, Res.andThen_next, hpost]⟩

theorem exec_sta (m : AddrMode) (s : State) : exec (.sta m) s = busWrite (effAddr m s) s.a s := rfl
theorem exec_stx (m : AddrMode) (s : State) : exec (.stx m) s = busWrite (effAddr m s) s.x s := rfl
theorem exec_sty (m : AddrMode) (s : State) : exec (.sty m) s = busWrite (effAddr m s) s.y s := rfl
theorem exec_sax (m : AddrMode) (s : State) : exec (.sax m) s = busWrite (effAddr m s) (s.a &&& s.x) s := rfl

/-- Every storing instruction is one bus write of some byte to its effective address. -/
theorem exec_storing {m : AddrMode} {i : Instr} (hi : i ∈ [.sta m, .stx m, .sty m, .sax m]) (s : State) :
    ∃ v, exec i s = busWrite (effAddr m s) v s := by
  simp only [List.mem_cons, List.not_mem_nil, or_false] at hi
  rcases hi with rfl | rfl | rfl | rfl
  · exact ⟨_, exec_sta m s⟩
  · exact ⟨_, exec_stx m s⟩
  · exact ⟨_, exec_sty m s⟩
  · exact ⟨_, exec_sax m s⟩

/-- An instruction that is one bus write runs wherever the write answers. -/
theorem exec_next_of_writable {i : Instr} {a : Addr} {v : Byte} {s : State} (hexec : exec i s = busWrite a v s)
    (h : writable a v s = true) : ∃ t, busWrite a v s = .next t ∧ exec i s = .next t := by
  obtain ⟨t, ht⟩ := (busWrite_writable a v s).1 h
  exact ⟨t, ht, hexec.trans ht⟩

/-! The obligations. -/

/-- Settles O53: a store is one bus write, which keeps the registers and all that its address does not reach. -/
theorem storingFrame : Obligations.StoringFrame := by
  intro m i s t hi h
  obtain ⟨v, hexec⟩ := exec_storing hi s
  have hwrite : busWrite (effAddr m s) v s = .next t := hexec.symm.trans h
  obtain ⟨ha, hx, hy, -, hp, -, -, -, -, -, -, hdraws, -⟩ := busWrite_kept hwrite
  exact ⟨ha, hx, hy, hp, hdraws, .of_busWrite hwrite, fun hport => busWrite_statusPort hport hwrite⟩

/-- Settles O36: a load is its operand's read, and then its destination with N and Z. -/
theorem loadsComplete : Obligations.LoadsComplete := fun _ m _ =>
  ⟨fun h => ⟨.of_reading rfl (fun v t => (t.setA v).setNZ_eq_ofResult v) h,
    .of_reading rfl (fun v t => (t.setX v).setNZ_eq_ofResult v) h,
    .of_reading rfl (fun v t => (t.setY v).setNZ_eq_ofResult v) h⟩,
    .of_reading (o := .mem m) rfl fun v t => ((t.setA v).setX v).setNZ_eq_ofResult v⟩

/-- Settles O37: each store is the bus write of its byte. -/
theorem storesComplete : Obligations.StoresComplete := fun m s =>
  ⟨exec_next_of_writable (exec_sta m s), exec_next_of_writable (exec_stx m s), exec_next_of_writable (exec_sty m s),
    exec_next_of_writable (exec_sax m s)⟩

end Sys2Proof.Machine

/-! Transfers and the stack instructions: the one-byte rows of the opcode table, and what pushes and pulls do to the
stack page (41_transfer_stack R140 to R151). -/

namespace Sys2Proof.Machine

/-! One-byte instructions. -/

/-- An implied row of the opcode table is a one-byte instruction of that row's count, where the instruction has neither
a memory operand nor a branch's displacement. -/
theorem OneByte.of_impliedRow {op : Byte} {i : Instr} {c : Nat} (hrow : rowOf op = impliedRow i c)
    (hm : memForm i = none) (hb : ∀ p, branchForm i p = none) : OneByte op i c := by
  have hcount : operandCount op = 0 := congrArg OpRow.operands hrow
  have hinstr : instrOf op 0 0 = i := congrArg (fun r => r.instr 0 0) hrow
  have hbase : baseCycles op = c := congrArg OpRow.base hrow
  have hop : i.opcode = some op := hinstr ▸ opcode_instrOf op 0 0
  exact ⟨fun rest => by rw [decode_zero hcount, hinstr],
    fun s => by rw [countOf_plain hop hm (hb s.p), Timing.standard_baseOf, hbase]⟩

/-! The status byte. -/

/-- The flags that the byte of `p` spells are `p` (10_state R27). -/
@[simp] theorem Flags.ofByte_toByte (p : Flags) : Flags.ofByte p.toByte = p := by
  simp only [Flags.ofByte, Flags.toByte, BitVec.getLsbD_append, BitVec.getLsbD_ofBool]
  simp

/-- A pulled status as one byte: bits 5 and 4 of the pulled byte give way to a set reserved flag and the stored break
flag. -/
theorem Flags.pulled_eq_ofByte (p : Flags) (v : Byte) :
    p.pulled v = Flags.ofByte ((v &&& 0xCF) ||| (p.toByte &&& 0x10) ||| 0x20) := by
  have hbreak : p.toByte[4] = p.b := congrArg Flags.b p.ofByte_toByte
  simp [Flags.pulled, Flags.ofByte, hbreak]

/-! Pushes and pulls. -/

theorem push_wf {s : State} (v : Byte) (h : s.ram.wf 0x800 = true) : (push v s).ram.wf 0x800 = true :=
  Memory.write_wf (by have := s.sp.isLt; unfold stackCell; omega) h

/-- A push changes the one RAM cell at the stack pointer. -/
theorem ramChanged_push {s : State} (v : Byte) (h : s.ram.wf 0x800 = true) :
    RamChanged s (push v s) [(0x100 + s.sp.toNat, v)] := by
  constructor
  · intro c hc
    rw [List.mem_singleton.1 hc]
    exact Memory.read_write_same h
  · intro j hj
    exact Memory.read_write_ne fun e => hj (List.mem_singleton.2 e.symm)

/-- An instruction that is one push runs, and changes the pointer and that push's cell alone. -/
theorem exec_of_push {i : Instr} {v : Byte} {s : State} (hexec : exec i s = .next (push v s)) :
    ∃ t, exec i s = .next t ∧ t = { s with ram := t.ram, sp := s.sp - 1 } ∧
      (s.ram.wf 0x800 = true → RamChanged s t [(0x100 + s.sp.toNat, v)]) :=
  ⟨push v s, hexec, rfl, ramChanged_push v⟩

theorem pulled_iterate (k : Nat) (s : State) : pulled^[k] s = s.setSp (s.sp + BitVec.ofNat 8 k) := by
  induction k generalizing s with
  | zero => simp [State.setSp]
  | succ k ih =>
    have hsp : s.sp + 1 + BitVec.ofNat 8 k = s.sp + BitVec.ofNat 8 (k + 1) := by
      rw [BitVec.add_assoc, ← BitVec.ofNat_add_ofNat, BitVec.add_comm 1]; rfl
    rw [Function.iterate_succ_apply, ih, pulled, State.setSp_sp, hsp]; rfl

/-- The pull after `k` others reads `k + 1` cells above the pointer, in the stack page. -/
theorem pullByte_pulled_iterate (k : Nat) (s : State) :
    pullByte (pulled^[k] s) = s.ram.read (0x100 + (s.sp.toNat + k + 1) % 256) := by
  simp [pulled_iterate, pullByte, stackCell, BitVec.toNat_add]

/-- The first pull after a push gives the byte pushed. -/
theorem pullByte_push {s : State} (v : Byte) (h : s.ram.wf 0x800 = true) : pullByte (push v s) = v := by
  rw [pullByte, push_eq, BitVec.sub_add_cancel]
  exact Memory.read_write_same h

/-- The later pulls are those of the stack before the push, until they come round to the pushed cell. -/
theorem pullByte_pulled_iterate_push {k : Nat} (hk : k < 255) (v : Byte) (s : State) :
    pullByte (pulled^[k + 1] (push v s)) = pullByte (pulled^[k] s) := by
  have hsp : ((s.sp - 1).toNat + (k + 1) + 1) % 256 = (s.sp.toNat + k + 1) % 256 := by bv_omega
  rw [pullByte_pulled_iterate, pullByte_pulled_iterate, push_eq, hsp]
  exact Memory.read_write_ne (by omega)

/-! The obligations. -/

/-- Settles O38: each transfer is its register's update, followed but for TXS by N and Z of the byte moved. -/
theorem transfersComplete : Obligations.TransfersComplete :=
  ⟨.of_impliedRow rfl rfl fun _ => rfl, .of_impliedRow rfl rfl fun _ => rfl, .of_impliedRow rfl rfl fun _ => rfl,
    .of_impliedRow rfl rfl fun _ => rfl, .of_impliedRow rfl rfl fun _ => rfl, .of_impliedRow rfl rfl fun _ => rfl,
    fun s =>
      ⟨congrArg Host.Outcome.next ((s.setX s.a).setNZ_eq_ofResult s.a),
        congrArg Host.Outcome.next ((s.setY s.a).setNZ_eq_ofResult s.a),
        congrArg Host.Outcome.next ((s.setA s.x).setNZ_eq_ofResult s.x),
        congrArg Host.Outcome.next ((s.setA s.y).setNZ_eq_ofResult s.y),
        congrArg Host.Outcome.next ((s.setX s.sp).setNZ_eq_ofResult s.sp), rfl⟩⟩

/-- Settles O39: PHA and PHP are one push, PLA and PLP one pull and the write of its register. -/
theorem stackInstructionsComplete : Obligations.StackInstructionsComplete := by
  refine ⟨.of_impliedRow rfl rfl fun _ => rfl, .of_impliedRow rfl rfl fun _ => rfl,
    .of_impliedRow rfl rfl fun _ => rfl, .of_impliedRow rfl rfl fun _ => rfl, fun s => ?_⟩
  have hpull : pullByte s = s.ram.read (0x100 + (s.sp.toNat + 1) % 256) := pullByte_pulled_iterate 0 s
  have hplp := s.p.pulled_eq_ofByte (pullByte s)
  exact ⟨exec_of_push rfl, exec_of_push rfl,
    ⟨_, hpull, congrArg Host.Outcome.next (((pulled s).setA (pullByte s)).setNZ_eq_ofResult (pullByte s))⟩,
    ⟨_, hpull, congrArg (fun p => Host.Outcome.next ((pulled s).setP p)) hplp⟩⟩

/-- Settles O40: each pull skips the pushes undone before it and gives the byte of the next. -/
theorem stackDiscipline : Obligations.StackDiscipline := by
  intro b1 b2 b3 s h1 t
  have h2 : (push b1 s).ram.wf 0x800 = true := push_wf b1 h1
  have h3 : (push b2 (push b1 s)).ram.wf 0x800 = true := push_wf b2 h2
  refine ⟨pullByte_push b3 h3, ?_, ?_, ?_⟩
  · calc pullByte (pulled t)
      _ = pullByte (push b2 (push b1 s)) := pullByte_pulled_iterate_push (k := 0) (by decide) b3 _
      _ = b2 := pullByte_push b2 h2
  · calc pullByte (pulled (pulled t))
      _ = pullByte (pulled (push b2 (push b1 s))) := pullByte_pulled_iterate_push (k := 1) (by decide) b3 _
      _ = pullByte (push b1 s) := pullByte_pulled_iterate_push (k := 0) (by decide) b2 _
      _ = b1 := pullByte_push b1 h1
  · simp [t, pulled, push_eq]

end Sys2Proof.Machine

/-! Arithmetic, logic, compare, increment and decrement: the model's flag computations in plain numbers, and an
instruction's run from its operand's read (42_arithmetic_logic R160 to R176). -/

namespace Sys2Proof.Machine

/-! Bytes in plain numbers. -/

theorem add_one_eq_ofNat (v : Byte) : v + 1 = BitVec.ofNat 8 (v.toNat + 1) := by
  rw [BitVec.ofNat_add, BitVec.ofNat_toNat, BitVec.setWidth_eq]; rfl

theorem sub_one_eq_ofNat (v : Byte) : v - 1 = BitVec.ofNat 8 (v.toNat + 255) := by
  rw [BitVec.ofNat_add, BitVec.ofNat_toNat, BitVec.setWidth_eq, BitVec.sub_eq_add_neg]; rfl

theorem sub_eq_ofInt (v w : Byte) : v - w = BitVec.ofInt 8 ((v.toNat : Int) - w.toNat) := by
  rw [Int.sub_eq_add_neg, BitVec.ofInt_add, BitVec.ofInt_neg, BitVec.ofInt_natCast, BitVec.ofInt_natCast,
    BitVec.ofNat_toNat, BitVec.ofNat_toNat, BitVec.setWidth_eq, BitVec.setWidth_eq, BitVec.sub_eq_add_neg]

theorem getLsbD_seven (v : Byte) : v.getLsbD 7 = decide (0x80 ≤ v.toNat) :=
  v.msb_eq_getLsbD_last.symm.trans v.msb_eq_decide

theorem getLsbD_six (v : Byte) : v.getLsbD 6 = decide (0x40 ≤ v.toNat % 0x80) := by
  rw [BitVec.getLsbD, Nat.testBit_eq_decide_div_mod_eq, decide_eq_decide]
  omega

/-! The adder. -/

/-- The overflow bit of the adder says that the operands have one sign and the result the other. -/
theorem addBytes_overflow (a m : Byte) (c : Bool) : (addBytes a m c).overflow =
    decide (a.msb = m.msb ∧ a.msb ≠ (BitVec.ofNat 8 (sumOf a m c)).msb) := by
  have hbit (w : Byte) : decide (w &&& 0x80 ≠ 0) = w.msb := by
    rw [show (0x80 : Byte) = BitVec.twoPow 8 7 from rfl, BitVec.and_twoPow, BitVec.msb_eq_getLsbD_last]
    cases w.getLsbD (8 - 1) <;> rfl
  rw [addBytes, hbit, ← sumOf, BitVec.msb_and, BitVec.msb_not, BitVec.msb_xor, BitVec.msb_xor]
  cases a.msb <;> cases m.msb <;> simp

/-- The signed sum of two bytes leaves the signed range exactly where they have one sign and the sum modulo 256 the
other. -/
theorem outsideSigned_signedSum (a m : Byte) (c : Bool) : outsideSigned (signedSum a m c) =
    decide (a.msb = m.msb ∧ a.msb ≠ (BitVec.ofNat 8 (sumOf a m c)).msb) := by
  have hc : c.toNat ≤ 1 := c.toNat_le
  rw [outsideSigned, decide_eq_decide]
  simp only [signedSum, sumOf, BitVec.toInt_eq_toNat_cond, BitVec.msb_eq_decide, BitVec.toNat_ofNat, decide_eq_decide,
    ne_eq]
  omega

/-- `AddWithCarry` is the addition in plain numbers (R160, R176). -/
theorem State.addWithCarry_eq_added (s : State) (m : Byte) : s.addWithCarry m = s.added m := by
  have hv := (addBytes_overflow s.a m s.p.c).trans (outsideSigned_signedSum s.a m s.p.c).symm
  rw [State.addWithCarry, State.setNZ_eq_ofResult, hv]
  rfl

/-- Adding the complement of a byte is subtracting the byte (R162). -/
theorem State.added_not (s : State) (m : Byte) : s.added (~~~m) = s.subtracted m := by
  have hc : (s.p.c.toNat : Int) = 1 - (!s.p.c).toNat := by cases s.p.c <;> rfl
  have hnot : ((~~~m).toNat : Int) = 255 - m.toNat := by have := m.isLt; rw [BitVec.toNat_not]; omega
  have hsum : (sumOf s.a (~~~m) s.p.c : Int) = differenceOf s.a m s.p.c + 256 := by
    unfold sumOf differenceOf; omega
  have hsigned : signedSum s.a (~~~m) s.p.c = signedDifference s.a m s.p.c := by
    simp only [signedSum, signedDifference, BitVec.toInt_eq_toNat_cond]
    omega
  have hresult : BitVec.ofNat 8 (sumOf s.a (~~~m) s.p.c) = BitVec.ofInt 8 (differenceOf s.a m s.p.c) := by
    rw [← BitVec.ofInt_natCast, hsum, BitVec.ofInt_add]
    exact BitVec.add_zero _
  have hcarry : 0x100 ≤ sumOf s.a (~~~m) s.p.c ↔ 0 ≤ differenceOf s.a m s.p.c := by omega
  simp only [State.added, State.subtracted, hresult, hcarry, hsigned]

/-- `AddWithCarry(M ^ 0xFF)` is the subtraction in plain numbers (R162, R176). -/
theorem State.addWithCarry_xor_eq_subtracted (s : State) (m : Byte) : s.addWithCarry (m ^^^ 0xFF) = s.subtracted m := by
  rw [State.addWithCarry_eq_added, show m ^^^ 0xFF = ~~~m from BitVec.xor_allOnes, State.added_not]

/-! Compare and BIT. -/

/-- `Compare(reg, M)` is the comparison in plain numbers (R167). -/
theorem State.compare_eq_compared (s : State) (reg m : Byte) : s.compare reg m = s.compared reg m := by
  have hc : m.toNat ≤ reg.toNat ↔ 0 ≤ (reg.toNat : Int) - m.toNat := by omega
  rw [State.compare, State.setNZ_eq_ofResult, sub_eq_ofInt]
  simp only [hc]
  rfl

theorem State.bitTest_eq (s : State) (m : Byte) : s.bitTest m = { s with p := { s.p with
    n := decide (0x80 ≤ m.toNat), v := decide (0x40 ≤ m.toNat % 0x80), z := decide ((s.a &&& m) = 0) } } := by
  rw [State.bitTest, getLsbD_seven, getLsbD_six]
  rfl

/-! From an operand's access to the instruction's run. -/

/-- An instruction that is its operand's read and then an update runs wherever the operand answers; the update may use
the registers from before the read, which keeps them. -/
theorem ReadRuns.of_reading_kept {i : Instr} {o : Operand} {f : Byte × State → State} {post : Byte → State → State}
    {s : State} (hexec : exec i s = Res.andThen (readOperand o s) (fun r => .next (f r)))
    (hpost : ∀ v t, t.a = s.a → t.x = s.x → t.y = s.y → f (v, t) = post v t) (h : operandReadable o s = true) :
    ReadRuns i o post s := by
  obtain ⟨v, t, hread⟩ := (readOperand_readable o s).1 h
  obtain ⟨-, ha, hx, hy, -⟩ := readOperand_keeps hread
  exact ⟨v, t, hread, by rw [hexec, hread, Res.andThen_next, hpost v t ha hx hy]⟩

/-- An instruction that is a read-modify-write and then an update runs wherever the read answers; the update may use the
accumulator from before the access, which keeps it. -/
theorem ModifyRuns.of_modifying {α : Type} {i : Instr} {m : AddrMode} {g : Byte → α} {out : α → Byte}
    {f : α × State → State} {result : Byte → Byte} {post : Byte → State → State} {s : State}
    (hexec : exec i s = Res.andThen (modifyMem m g out s) (fun r => .next (f r))) (hresult : ∀ v, out (g v) = result v)
    (hpost : ∀ v t, t.a = s.a → f (g v, t) = post v t) (h : readable (effAddr m s) = true) :
    ModifyRuns i m result post s := by
  obtain ⟨r, t, hmod⟩ := modifyMem_readable g out h
  obtain ⟨v, s1, hread, rfl, hwrite⟩ := modifyMem_next hmod
  have ha : t.a = s.a := (busWrite_kept hwrite).1.trans (busRead_kept hread).1
  exact ⟨v, s1, t, hread, hresult v ▸ hwrite, by rw [hexec, hmod, Res.andThen_next, hpost v t ha]⟩

/-! The obligations. -/

/-- Settles O41: the adder is the sum and the signed overflow in plain numbers, and subtracting is adding the
complement. -/
theorem addSubtractComplete : Obligations.AddSubtractComplete := fun _ v s =>
  ⟨fun h => ⟨.of_reading rfl (fun m t => t.addWithCarry_eq_added m) h,
    .of_reading rfl (fun m t => t.addWithCarry_xor_eq_subtracted m) h⟩,
    congrArg Host.Outcome.next (s.addWithCarry_xor_eq_subtracted v)⟩

/-- Settles O43: BIT and the compares are their operand's read and then their flags, the register compared kept by the
read. -/
theorem testsComplete : Obligations.TestsComplete := fun _ m _ =>
  ⟨.of_reading (o := .mem m) (f := fun r => r.2.bitTest r.1) rfl fun v t => t.bitTest_eq v,
    fun h => ⟨.of_reading_kept rfl (fun v t ha _ _ => ha ▸ t.compare_eq_compared t.a v) h,
      .of_reading_kept rfl (fun v t _ hx _ => hx ▸ t.compare_eq_compared t.x v) h,
      .of_reading_kept rfl (fun v t _ _ hy => hy ▸ t.compare_eq_compared t.y v) h⟩⟩

/-- Settles O44: one read and one write of the byte's successor or predecessor, and then N and Z of it. -/
theorem incDecMemoryCompletes : Obligations.IncDecMemoryCompletes := fun _ _ h =>
  ⟨.of_modifying rfl add_one_eq_ofNat (fun v t _ => add_one_eq_ofNat v ▸ t.setNZ_eq_ofResult (v + 1)) h,
    .of_modifying rfl sub_one_eq_ofNat (fun v t _ => sub_one_eq_ofNat v ▸ t.setNZ_eq_ofResult (v - 1)) h⟩

/-- Settles O42: the read keeps the accumulator, and the update is A with N and Z of the bitwise result. -/
theorem logicCompletes : Obligations.LogicCompletes := fun _ _ h =>
  ⟨.of_reading_kept rfl (fun v t ha _ _ => ha ▸ (t.setA (t.a &&& v)).setNZ_eq_ofResult (t.a &&& v)) h,
    .of_reading_kept rfl (fun v t ha _ _ => ha ▸ (t.setA (t.a ||| v)).setNZ_eq_ofResult (t.a ||| v)) h,
    .of_reading_kept rfl (fun v t ha _ _ => ha ▸ (t.setA (t.a ^^^ v)).setNZ_eq_ofResult (t.a ^^^ v)) h⟩

/-- Settles O45: each is a one-byte row, the register's update, and N and Z of it. -/
theorem incDecRegisterCompletes : Obligations.IncDecRegisterCompletes :=
  ⟨.of_impliedRow rfl rfl fun _ => rfl, .of_impliedRow rfl rfl fun _ => rfl, .of_impliedRow rfl rfl fun _ => rfl,
    .of_impliedRow rfl rfl fun _ => rfl, fun s => by
      simp only [← add_one_eq_ofNat, ← sub_one_eq_ofNat]
      exact ⟨congrArg Host.Outcome.next ((s.setX (s.x + 1)).setNZ_eq_ofResult (s.x + 1)),
        congrArg Host.Outcome.next ((s.setY (s.y + 1)).setNZ_eq_ofResult (s.y + 1)),
        congrArg Host.Outcome.next ((s.setX (s.x - 1)).setNZ_eq_ofResult (s.x - 1)),
        congrArg Host.Outcome.next ((s.setY (s.y - 1)).setNZ_eq_ofResult (s.y - 1))⟩⟩

end Sys2Proof.Machine

/-! Shifts and rotates: the model's bit operations in plain numbers, and the instruction's two forms from them
(43_shift_rotate R180 to R184). -/

namespace Sys2Proof.Machine

/-! Bytes in plain numbers. -/

theorem shiftLeft_one_eq_ofNat (v : Byte) : v <<< 1 = BitVec.ofNat 8 (2 * v.toNat) := by
  apply BitVec.eq_of_toNat_eq
  rw [BitVec.toNat_shiftLeft, Nat.shiftLeft_eq, Nat.mul_comm]
  rfl

theorem ushiftRight_one_eq_ofNat (v : Byte) : v >>> 1 = BitVec.ofNat 8 (v.toNat / 2) := by
  have h := v.isLt
  apply BitVec.eq_of_toNat_eq
  rw [BitVec.toNat_ushiftRight, Nat.shiftRight_one, BitVec.toNat_ofNat]
  omega

theorem getLsbD_zero_eq_decide (v : Byte) : v.getLsbD 0 = decide (v.toNat % 2 = 1) := Nat.testBit_zero v.toNat

/-- A carry put into a bit that is clear is an addition: the OR has nothing to carry over. -/
theorem or_carry_eq_add {v : Byte} {k : Nat} (h : v.getLsbD k = false) (c : Bool) :
    v ||| (BitVec.ofBool c).setWidth 8 <<< k = v + BitVec.ofNat 8 (2 ^ k * c.toNat) := by
  have hplace : (BitVec.ofBool c).setWidth 8 <<< k = BitVec.ofNat 8 (2 ^ k * c.toNat) := by
    apply BitVec.eq_of_toNat_eq
    rw [BitVec.toNat_shiftLeft, Nat.shiftLeft_eq, Nat.mul_comm]
    cases c <;> rfl
  have hdisjoint : v &&& (BitVec.ofBool c).setWidth 8 <<< k = 0 := by
    cases c with
    | false => simp
    | true =>
      have htwo : (BitVec.ofBool true).setWidth 8 <<< k = BitVec.twoPow 8 k := rfl
      rw [htwo, BitVec.and_twoPow, h]
      rfl
  rw [← BitVec.add_eq_or_of_and_eq_zero _ _ hdisjoint, hplace]

/-! The four operations. -/

theorem shiftLeft_eq_aslOf (v : Byte) : shiftLeft v = ⟨(aslOf v).1, (aslOf v).2⟩ := by
  rw [shiftLeft, shiftLeft_one_eq_ofNat, getLsbD_seven]
  rfl

theorem shiftRight_eq_lsrOf (v : Byte) : shiftRight v = ⟨(lsrOf v).1, (lsrOf v).2⟩ := by
  rw [shiftRight, ushiftRight_one_eq_ofNat, getLsbD_zero_eq_decide]
  rfl

/-- ROL doubles the byte, which clears bit 0, and adds the carry there (R182). -/
theorem rotateLeft_eq_rolOf (c : Bool) (v : Byte) : rotateLeft c v = ⟨(rolOf c v).1, (rolOf c v).2⟩ := by
  have hclear : (v <<< 1).getLsbD 0 = false := by simp
  have hor := or_carry_eq_add hclear c
  rw [BitVec.shiftLeft_zero, shiftLeft_one_eq_ofNat, ← BitVec.ofNat_add, Nat.pow_zero, Nat.one_mul] at hor
  rw [rotateLeft, shiftLeft_one_eq_ofNat, hor, getLsbD_seven]
  rfl

/-- ROR halves the byte, which clears bit 7, and adds the carry there (R183). -/
theorem rotateRight_eq_rorOf (c : Bool) (v : Byte) : rotateRight c v = ⟨(rorOf c v).1, (rorOf c v).2⟩ := by
  have hclear : (v >>> 1).getLsbD 7 = false := by simp
  rw [rotateRight, or_carry_eq_add hclear, ushiftRight_one_eq_ofNat, ← BitVec.ofNat_add, getLsbD_zero_eq_decide]
  rfl

theorem State.setShiftFlags_eq_ofCarried (s : State) (c : Bool) (v : Byte) :
    s.setShiftFlags ⟨v, c⟩ = { s with p := s.p.ofCarried c v } := by
  rw [State.setShiftFlags, State.setNZ_eq_ofResult]
  rfl

/-- An instruction that is a shift operation on its operand runs on the accumulator, and on memory wherever the read
answers, as the plain numbers of that operation say (R184). -/
theorem runs_of_shiftOperand {i : ShiftOperand → Instr} {g : Byte → Shifted} {e : Byte → Byte × Bool} {s : State}
    (hexec : ∀ o, exec (i o) s = shiftOperand g o s) (hshift : ∀ v, g v = ⟨(e v).1, (e v).2⟩) (m : AddrMode) :
    exec (i .acc) s = .next { s with a := (e s.a).1, p := s.p.ofCarried (e s.a).2 (e s.a).1 } ∧
      (readable (effAddr m s) = true →
        ModifyRuns (i (.mem m)) m (fun v => (e v).1) (fun v t => { t with p := t.p.ofCarried (e v).2 (e v).1 }) s) := by
  obtain rfl : g = fun v => ⟨(e v).1, (e v).2⟩ := funext hshift
  constructor
  · rw [hexec, shiftOperand, State.setShiftFlags_eq_ofCarried]
    rfl
  · exact .of_modifying (hexec (.mem m)) (fun _ => rfl) fun v t _ => t.setShiftFlags_eq_ofCarried (e v).2 (e v).1

/-! The obligation. -/

/-- Settles O46: each instruction is its shift operation on the operand, and each operation is its plain numbers; the
rotates take the carry from before the access. -/
theorem shiftsComplete : Obligations.ShiftsComplete := by
  intro m s e he
  simp only [List.mem_cons, List.not_mem_nil, or_false] at he
  obtain rfl | rfl | rfl | rfl := he
  · exact runs_of_shiftOperand (fun _ => rfl) shiftLeft_eq_aslOf m
  · exact runs_of_shiftOperand (fun _ => rfl) shiftRight_eq_lsrOf m
  · exact runs_of_shiftOperand (fun _ => rfl) (rotateLeft_eq_rolOf s.p.c) m
  · exact runs_of_shiftOperand (fun _ => rfl) (rotateRight_eq_rorOf s.p.c) m

end Sys2Proof.Machine

/-! Control transfer: the jumps, the subroutine call and its return, the branches, and BRK and RTI as the interrupt entry
and its undoing (44_control_flow R190 to R204). -/

namespace Sys2Proof.Machine

/-! What pushes in a row leave in the stack page. -/

/-- A push after other changes adds its own cell to them, where that cell is none of theirs. -/
theorem RamChanged.then_push {s t : State} {cells : List (Nat × Byte)} (h : RamChanged s t cells) (v : Byte)
    (hwf : t.ram.wf 0x800 = true) (hfree : 0x100 + t.sp.toNat ∉ cells.map Prod.fst) :
    RamChanged s (push v t) (cells ++ [(0x100 + t.sp.toNat, v)]) := by
  obtain ⟨hcells, hother⟩ := h
  obtain ⟨hpushed, hkept⟩ := ramChanged_push v hwf
  constructor
  · intro c hc
    obtain hc | hc := List.mem_append.1 hc
    · have hne : c.1 ≠ 0x100 + t.sp.toNat := fun e => hfree (e ▸ List.mem_map_of_mem hc)
      rw [hkept _ (by simpa using hne), hcells c hc]
    · exact hpushed c hc
  · intro j hj
    rw [List.map_append, List.mem_append, not_or] at hj
    rw [hkept j hj.2, hother j hj.1]

/-- A pushed word is two bytes, the high one at the stack pointer and the low one below it, in the stack page. -/
theorem ramChanged_pushWord {s : State} (w : Addr) (h : s.ram.wf 0x800 = true) :
    RamChanged s (pushWord w s) [(0x100 + s.sp.toNat, hiByte w), (0x100 + (s.sp - 1).toNat, loByte w)] := by
  have hne : (s.sp - 1).toNat ≠ s.sp.toNat := by bv_omega
  exact (ramChanged_push (hiByte w) h).then_push (loByte w) (push_wf _ h) (by simpa [push_eq] using hne)

theorem pushWord_sp (w : Addr) (s : State) : (pushWord w s).sp = s.sp - 2 := by
  have hsp : s.sp - 1 - 1 = s.sp - 2 := by bv_omega
  exact hsp

/-! The interrupt entry (60_exceptions R331). -/

/-- Taking an interrupt through a vector of program ROM enters its handler. -/
theorem entersHandler_takeInterrupt (brk : Bool) (ret : Addr) {v : Addr} {s : State} (h : s.ram.wf 0x800 = true)
    (hv : 0x8000 ≤ v.toNat) (hv' : 0x8000 ≤ (v + 1).toNat) :
    EntersHandler brk ret v s (takeInterrupt brk ret v s) where
  saved := by
    have hword : RamChanged s (pushWord ret (s.setP { s.p with b := brk })) _ := ramChanged_pushWord ret h
    have hwf : (pushWord ret (s.setP { s.p with b := brk })).ram.wf 0x800 = true := push_wf _ (push_wf _ h)
    have hhigh : (s.sp - 2).toNat ≠ s.sp.toNat := by bv_omega
    have hlow : (s.sp - 2).toNat ≠ (s.sp - 1).toNat := by bv_omega
    have hstatus := hword.then_push (Flags.toByte { s.p with b := brk }) hwf
    rw [pushWord_sp] at hstatus
    exact hstatus (by simpa using ⟨hhigh, hlow⟩)
  target := readsWord_vector _ hv hv'
  rest := by
    have hsp : s.sp - 1 - 1 - 1 = s.sp - 3 := by bv_omega
    rw [takeInterrupt_eq, hsp]

/-- Settles O12: BRK is the interrupt entry with the break flag set, and the saved address is two past its opcode byte. -/
theorem brkEntersHandler : Obligations.BrkEntersHandler := by
  refine ⟨.of_impliedRow rfl rfl fun _ => rfl, fun s h => ⟨_, rfl, ?_⟩⟩
  have hret : s.pc - 1 + 2 = s.pc + 1 := by bv_omega
  rw [hret]
  exact entersHandler_takeInterrupt true (s.pc + 1) h (by decide) (by decide)

/-- Settles O13: three pulls, the first of them the status. -/
theorem rtiPullsStatusAndPc : Obligations.RtiPullsStatusAndPc := by
  refine ⟨.of_impliedRow rfl rfl fun _ => rfl, fun s => ?_⟩
  have hsp2 : s.sp + 1 + 1 = s.sp + 2 := by bv_omega
  have hsp3 : s.sp + 2 + 1 = s.sp + 3 := by bv_omega
  rw [← Flags.pulled_eq_ofByte, ← hsp3, ← hsp2]
  exact congrArg Host.Outcome.next (returnFromInterrupt_eq s)

/-! Jumps. -/

/-- The address of a pointer's second byte in plain arithmetic: the low byte wraps inside the page (20_memory R82). -/
theorem joinBytes_succ_loByte (w : Addr) :
    joinBytes (hiByte w) (loByte w + 1) = BitVec.ofNat 16 (w.toNat / 256 * 256 + (w.toNat + 1) % 256) := by
  apply BitVec.eq_of_toNat_eq
  have hw := w.isLt
  have hsucc : (loByte w + 1).toNat = (w.toNat + 1) % 256 := by
    rw [BitVec.toNat_add, toNat_loByte]; exact Nat.mod_add_mod ..
  rw [toNat_joinBytes, toNat_hiByte, hsucc, BitVec.toNat_ofNat]
  omega

/-- An indirect jump reads its pointer's bytes in order and goes to their word (R191). -/
theorem exec_jmp_ind {w : Addr} {s s1 s2 : State} {lo hi : Byte} (hlo : busRead w s = .next (lo, s1))
    (hhi : busRead (joinBytes (hiByte w) (loByte w + 1)) s1 = .next (hi, s2)) :
    exec (.jmp (.ind w)) s = .next (s2.setPc (joinBytes hi lo)) := by
  simp only [exec, execJmp, jumpTarget, readPageWrap16, hlo, hhi, Res.andThen_next]

theorem exec_jsr (w : Addr) (s : State) : exec (.jsr w) s = .next ((pushWord (s.pc - 1) s).setPc w) := rfl

/-- A call changes RAM, the stack pointer and the pc alone (R192). -/
theorem setPc_pushWord_eq (v w : Addr) (s : State) : (pushWord v s).setPc w =
    { s with ram := (pushWord v s).ram, sp := s.sp - 2, pc := w } := by
  rw [← pushWord_sp v s]; rfl

/-- RTS pulls a word, low byte first, and goes one past it (R193). -/
theorem exec_rts (s : State) : exec .rts s = .next { s with
    sp := s.sp + 2
    pc := joinBytes (s.ram.read (0x100 + (s.sp + 2).toNat)) (s.ram.read (0x100 + (s.sp + 1).toNat)) + 1 } := by
  have hsp : s.sp + 2 = s.sp + 1 + 1 := by bv_omega
  rw [hsp]
  rfl

/-- RTS straight after JSR pulls the address of the call's last byte, and so goes on past the call (R193). -/
theorem exec_rts_of_jsr {w : Addr} {s t : State} (h : s.ram.wf 0x800 = true) (hjsr : exec (.jsr w) s = .next t) :
    exec .rts t = .next { s with ram := t.ram } := by
  rw [exec_jsr, setPc_pushWord_eq] at hjsr
  cases hjsr
  obtain ⟨hsaved, -⟩ := ramChanged_pushWord (s.pc - 1) h
  have hhi : (pushWord (s.pc - 1) s).ram.read (0x100 + s.sp.toNat) = _ := hsaved _ (.head _)
  have hlo : (pushWord (s.pc - 1) s).ram.read (0x100 + (s.sp - 1).toNat) = _ := hsaved _ (.tail _ (.head _))
  have hsp : s.sp - 2 + 1 = s.sp - 1 := by bv_omega
  rw [exec_rts]
  simp only [hsp, hhi, hlo, joinBytes_split, BitVec.sub_add_cancel]

/-- Settles O47: an indirect jump is the two reads of its pointer, a call is one pushed word, and a return one pulled. -/
theorem jumpsComplete : Obligations.JumpsComplete := by
  refine ⟨fun _ _ => rfl, fun w s h => ?_, fun w s => ?_, exec_rts, fun _ _ _ => exec_rts_of_jsr⟩
  · obtain ⟨hlo, hhi⟩ := Bool.and_eq_true_iff.1 h
    obtain ⟨lo, s1, hlo⟩ := (busRead_readable _ s).1 hlo
    obtain ⟨hi, s2, hhi⟩ := (busRead_readable _ s1).1 hhi
    exact ⟨lo, hi, s1, s2, hlo, joinBytes_succ_loByte w ▸ hhi, exec_jmp_ind hlo hhi⟩
  · exact ⟨_, rfl, setPc_pushWord_eq (s.pc - 1) w s, ramChanged_pushWord (s.pc - 1)⟩

/-! Branches. -/

/-- A branch writes the pc alone, and that only where it is taken (R196). -/
theorem branchIf_eq (taken : Bool) (d : Byte) (s : State) : branchIf taken d s = .next
    { s with pc := if taken then BitVec.ofInt 16 ((s.pc.toNat : Int) + d.toInt) else s.pc } := by
  cases taken with
  | false => rfl
  | true => exact congrArg (fun pc => Host.Outcome.next (s.setPc pc)) (branchTarget_eq d s)

/-- A two-byte instruction that is a branch on `taken` decodes from its bytes and runs as that branch (R196). -/
theorem branch_completes {op : Byte} {i : Instr} {taken : Bool} {d : Byte} {s : State} (hbytes : encode i = [op, d])
    (hwf : i.wellFormed = true) (hexec : exec i s = branchIf taken d s) :
    (∀ rest, decode (op :: d :: rest) = .ok (i, rest)) ∧ exec i s = .next
      { s with pc := if taken then BitVec.ofInt 16 ((s.pc.toNat : Int) + d.toInt) else s.pc } := by
  refine ⟨fun rest => ?_, by rw [hexec, branchIf_eq]⟩
  have hdecode := decodeInvertsEncode i rest hwf
  rwa [hbytes] at hdecode

/-- Settles O48: each of the eight has its row's bytes and is the branch on its flag's condition. -/
theorem branchesComplete : Obligations.BranchesComplete := by
  intro d s e he
  simp only [List.mem_cons, List.not_mem_nil, or_false] at he
  obtain rfl | rfl | rfl | rfl | rfl | rfl | rfl | rfl := he <;> exact branch_completes rfl rfl rfl

end Sys2Proof.Machine

/-! The flag instructions and NOP: the one-byte rows of the opcode table, and one flag written or none
(45_flags_nop R210 to R217). -/

namespace Sys2Proof.Machine

/-- Settles O49: each of the eight is a one-byte row of two cycles; a flag instruction is the write of its flag and NOP
the state as it is. -/
theorem flagInstructionsComplete : Obligations.FlagInstructionsComplete := by
  refine ⟨?clc, ?sec, ?cli, ?sei, ?cld, ?sed, ?clv, ?nop, fun s => ?effects⟩
  case effects => exact ⟨rfl, rfl, rfl, rfl, rfl, rfl, rfl, rfl⟩
  all_goals exact .of_impliedRow rfl rfl fun _ => rfl

end Sys2Proof.Machine

/-! The undocumented opcodes: the NOP forms, the combined instructions as a read-modify-write and an update of A and the
flags, and the bytes with no table entry (46_undocumented R220 to R231). -/

namespace Sys2Proof.Machine

/-! The combined instructions. -/

theorem State.setCarryThenA_eq_ofCarried (s : State) (c : Bool) (v : Byte) :
    s.setCarryThenA c v = { s with a := v, p := s.p.ofCarried c v } := by
  rw [State.setCarryThenA, State.setNZ_eq_ofResult]
  rfl

/-- An instruction that shifts memory and then combines the shifted byte into the accumulator runs wherever the read
answers, as the plain numbers of its shift say (R227 to R229). -/
theorem modifyRuns_of_shiftThenA {i : Instr} {m : AddrMode} {g : Byte → Shifted} {e : Byte → Byte × Bool}
    {combine : Byte → Byte → Byte} {s : State}
    (hexec : exec i s = Res.andThen (modifyMem m g Shifted.result s) fun r =>
      .next (r.2.setCarryThenA r.1.carry (combine s.a r.1.result)))
    (hshift : ∀ v, g v = ⟨(e v).1, (e v).2⟩) (h : readable (effAddr m s) = true) :
    ModifyRuns i m (fun v => (e v).1) (fun v t => { t with
      a := combine t.a (e v).1, p := t.p.ofCarried (e v).2 (combine t.a (e v).1) }) s := by
  obtain rfl : g = fun v => ⟨(e v).1, (e v).2⟩ := funext hshift
  exact .of_modifying hexec (fun _ => rfl)
    (fun v t ha => ha ▸ t.setCarryThenA_eq_ofCarried (e v).2 (combine t.a (e v).1)) h

/-- *DCP decrements memory and compares A with the result (R225). -/
theorem modifyRuns_dcp {m : AddrMode} {s : State} (h : readable (effAddr m s) = true) :
    ModifyRuns (.dcp m) m (fun v => BitVec.ofNat 8 (v.toNat + 255))
      (fun v t => t.compared t.a (BitVec.ofNat 8 (v.toNat + 255))) s :=
  .of_modifying rfl sub_one_eq_ofNat
    (fun v t ha => ha ▸ sub_one_eq_ofNat v ▸ t.compare_eq_compared t.a (v - 1)) h

/-- *ISB increments memory and subtracts the result from A, with the carry from before (R226). -/
theorem modifyRuns_isb {m : AddrMode} {s : State} (h : readable (effAddr m s) = true) :
    ModifyRuns (.isb m) m (fun v => BitVec.ofNat 8 (v.toNat + 1))
      (fun v t => t.subtracted (BitVec.ofNat 8 (v.toNat + 1))) s :=
  .of_modifying rfl add_one_eq_ofNat
    (fun v t _ => add_one_eq_ofNat v ▸ t.addWithCarry_xor_eq_subtracted (v + 1)) h

/-- *RRA rotates memory right and adds the result to A, with the bit shifted out as the carry (R230). -/
theorem modifyRuns_rra {m : AddrMode} {s : State} (h : readable (effAddr m s) = true) :
    ModifyRuns (.rra m) m (fun v => (rorOf s.p.c v).1)
      (fun v t => State.added { t with p := { t.p with c := (rorOf s.p.c v).2 } } (rorOf s.p.c v).1) s := by
  refine .of_modifying rfl (fun v => congrArg Shifted.result (rotateRight_eq_rorOf s.p.c v)) (fun v t _ => ?_) h
  rw [rotateRight_eq_rorOf]
  exact (t.setC (rorOf s.p.c v).2).addWithCarry_eq_added (rorOf s.p.c v).1

/-- Settles O51: each is one read-modify-write, whose byte is plain numbers, and then its second half; the rotates take
the carry from before the access. -/
theorem combinedInstructionsComplete : Obligations.CombinedInstructionsComplete := fun _ s h =>
  ⟨modifyRuns_dcp h, modifyRuns_isb h,
    modifyRuns_of_shiftThenA (combine := (· ||| ·)) rfl shiftLeft_eq_aslOf h,
    modifyRuns_of_shiftThenA (combine := (· &&& ·)) rfl (rotateLeft_eq_rolOf s.p.c) h,
    modifyRuns_of_shiftThenA (combine := (· ^^^ ·)) rfl shiftRight_eq_lsrOf h,
    modifyRuns_rra h⟩

/-! The undocumented NOPs. -/

/-- Settles O50: the operand of a NOP form is not accessed, and what decodes to one is its row of the table. -/
theorem undocumentedNopsComplete : Obligations.UndocumentedNopsComplete := by
  refine ⟨fun _ _ _ => rfl, fun bs rest op o hdecode => ?_, rfl⟩
  obtain ⟨hwf, hbytes⟩ := encodeInvertsDecode _ _ _ hdecode
  exact ⟨hbytes ▸ rfl, List.contains_iff_mem.1 hwf⟩

/-! The illegal bytes (R231). -/

/-- A byte decodes, alone, to the illegal instruction exactly where it is one of the illegal bytes. -/
theorem decode_illegal_iff (op : Byte) (rest : List Byte) :
    decode (op :: rest) = .ok (.illegal op, rest) ↔ op ∈ illegalOpcodes := by
  rw [← List.contains_iff_mem]
  constructor
  · intro hdecode
    obtain ⟨hwf, -⟩ := encodeInvertsDecode _ _ _ hdecode
    exact hwf
  · exact decodeInvertsEncode (.illegal op) rest

/-- A step that fetches an illegal byte faults with it and the address it was fetched from, whatever answers there. -/
theorem step_illegal {op : Byte} {s s1 s2 : State} (hbegin : beginStep s = .next s1)
    (hfetch : fetchByte s1 = .next (op, s2)) (hop : op ∈ illegalOpcodes) : step s = .fault (.illegalOpcode op s1.pc) := by
  obtain ⟨u, hread, rfl⟩ := fetchByte_next hfetch
  have hinstr : fetchInstr s1 = .next (.illegal op, u.setPc (u.pc + 1)) :=
    fetchInstr_of_decode ((decode_illegal_iff op []).2 hop) ⟨u, hread, rfl⟩
  obtain ⟨-, -, -, -, -, hpc, -⟩ := busRead_kept hread
  have hat : u.pc + 1 - 1 = s1.pc := by rw [BitVec.add_sub_cancel, hpc]
  rw [step_of_fetch hbegin hinstr, ← hat]
  rfl

/-- Settles O5: the illegal bytes are the ones that decode to the illegal instruction, whose Operation is the fault;
after the opcode of LDA immediate any byte is its operand. -/
theorem illegalOpcodeFaults : Obligations.IllegalOpcodeFaults := by
  refine ⟨rfl, by decide, decode_illegal_iff, fun op rest _ => decode_one rfl op rest, fun _ _ => rfl, ?_⟩
  exact fun _ _ _ _ => step_illegal

end Sys2Proof.Machine

/-! The ports of the PPU: what a bus access of each does, at all of its addresses, in plain numbers
(47_ppu_ports R243 to R259). -/

namespace Sys2Proof.Machine

/-! A bus access of a port. -/

theorem portOf_eq_iff {a : Addr} {p : Port} : portOf a = p ↔ a.toNat % 8 = p.number := by
  rw [← portOf_number]
  generalize portOf a = q
  constructor
  · rintro rfl
    rfl
  · cases q <;> cases p <;> simp [Port.number]

theorem busRead_onPort {a : Addr} {p : Port} (s : State) (h : onPort a p.number) : busRead a s = ppuRead p a s := by
  obtain ⟨hge, hlt, hnum⟩ := h
  rw [busRead_port s hge hlt, portOf_eq_iff.2 hnum]

theorem busWrite_onPort {a : Addr} {p : Port} (v : Byte) (s : State) (h : onPort a p.number) :
    busWrite a v s = ppuWrite p v s := by
  obtain ⟨hge, hlt, hnum⟩ := h
  rw [busWrite_port v s hge hlt, portOf_eq_iff.2 hnum]

/-- A port write that aims no invalid colour at the palette is the port's store (R252). -/
theorem ppuWrite_of_valid {p : Port} {v : Byte} {s : State}
    (h : p = .data → invalidPaletteByte s.ppu.vramAddr v = false) :
    ppuWrite p v s = .next (s.setPpu (s.ppu.writePort s.cart.mirroring p v)) := by
  rw [ppuWrite, if_neg fun ⟨hp, hinvalid⟩ => Bool.false_ne_true ((h hp).symm.trans hinvalid)]

/-- A write of a port other than the data port is the port's store. -/
theorem busWrite_registerPort {a : Addr} {p : Port} (v : Byte) (s : State) (hp : p ≠ .data) (h : onPort a p.number) :
    busWrite a v s = .next (s.setPpu (s.ppu.writePort s.cart.mirroring p v)) := by
  rw [busWrite_onPort v s h, ppuWrite_of_valid fun hdata => absurd hdata hp]

/-! The stores of ports 4 and 5. -/

theorem Ppu.writeOamData_eq (q : Ppu) (v : Byte) : q.writeOamData v = { q with
    oam := q.oam.write q.oamAddr.toNat v, oamAddr := BitVec.ofNat 8 (q.oamAddr.toNat + 1) } := by
  rw [Ppu.writeOamData, add_one_eq_ofNat]

/-- The scroll port takes X where its toggle is clear and Y where it is set (R248). -/
theorem Ppu.writeScroll_eq (q : Ppu) (v : Byte) : q.writeScroll v = { q with
    scrollX := if q.scrollToggle then q.scrollX else v
    scrollY := if q.scrollToggle then v else q.scrollY
    scrollToggle := !q.scrollToggle } := by
  unfold Ppu.writeScroll
  cases q.scrollToggle <;> rfl

/-- Settles O18: each port's write is its store, which is one register or one OAM byte in plain numbers. -/
theorem portWritesStore : Obligations.PortWritesStore := by
  intro a v s h h'
  refine ⟨fun hk => ?ctrl, fun hk => ?mask, fun hk => ?status, fun hk => ?oamAddr,
    fun hk => ?oamData, fun hk => ?scroll⟩
  case ctrl => exact busWrite_registerPort (p := .ctrl) v s nofun ⟨h, h', hk⟩
  case mask => exact busWrite_registerPort (p := .mask) v s nofun ⟨h, h', hk⟩
  case status => exact busWrite_registerPort (p := .status) v s nofun ⟨h, h', hk⟩
  case oamAddr => exact busWrite_registerPort (p := .oamAddr) v s nofun ⟨h, h', hk⟩
  case oamData =>
    rw [busWrite_registerPort (p := .oamData) v s nofun ⟨h, h', hk⟩, Ppu.writePort, Ppu.writeOamData_eq]
    rfl
  case scroll =>
    rw [busWrite_registerPort (p := .scroll) v s nofun ⟨h, h', hk⟩, Ppu.writePort, Ppu.writeScroll_eq]
    rfl

/-! The address latch (R254). -/

theorem Ppu.writeVramAddr_first {q : Ppu} (v : Byte) (h : q.addrToggle = false) : q.writeVramAddr v = { q with
    vramAddr := BitVec.ofNat 16 (v.toNat * 256), addrToggle := true } := by
  have hlt := v.isLt
  have hword : joinBytes v 0 = BitVec.ofNat 16 (v.toNat * 256) := by
    apply BitVec.eq_of_toNat_eq
    rw [toNat_joinBytes, BitVec.toNat_ofNat, Nat.mod_eq_of_lt (by omega)]
    exact Nat.add_zero _
  rw [Ppu.writeVramAddr, h, hword]
  rfl

theorem Ppu.writeVramAddr_second {q : Ppu} (v : Byte) (h : q.addrToggle = true) : q.writeVramAddr v = { q with
    vramAddr := BitVec.ofNat 16 (q.vramAddr.toNat + v.toNat), addrToggle := false } := by
  have hsum : q.vramAddr + v.setWidth 16 = BitVec.ofNat 16 (q.vramAddr.toNat + v.toNat) :=
    BitVec.eq_of_toNat_eq (by rw [toNat_add_byte, BitVec.toNat_ofNat])
  rw [Ppu.writeVramAddr, if_pos h, hsum]

/-- Adding the low byte to a word whose low byte is clear joins the two bytes. -/
theorem joinBytes_eq_add (hi lo : Byte) :
    joinBytes hi lo = BitVec.ofNat 16 ((BitVec.ofNat 16 (hi.toNat * 256)).toNat + lo.toNat) := by
  apply BitVec.eq_of_toNat_eq
  have hhi := hi.isLt
  rw [toNat_joinBytes, BitVec.toNat_ofNat, BitVec.toNat_ofNat]
  omega

/-- Settles O19: one write at each state of the toggle, and the second after the first. -/
theorem addressLatchAdds : Obligations.AddressLatchAdds := by
  intro a hi lo s h h' hk
  have hwrite (v : Byte) (t : State) : busWrite a v t = .next (t.setPpu (t.ppu.writeVramAddr v)) :=
    busWrite_registerPort (p := .vramAddr) v t nofun ⟨h, h', hk⟩
  have hfirst (hclear : s.ppu.addrToggle = false) : busWrite a hi s = .next { s with ppu := { s.ppu with
      vramAddr := BitVec.ofNat 16 (hi.toNat * 256), addrToggle := true } } := by
    rw [hwrite, Ppu.writeVramAddr_first hi hclear]
    rfl
  refine ⟨hfirst, fun hset => ?_, fun hclear => ?_⟩
  · rw [hwrite, Ppu.writeVramAddr_second lo hset]
    rfl
  · rw [hfirst hclear, Res.andThen_next, hwrite, Ppu.writeVramAddr_second lo rfl, joinBytes_eq_add]
    rfl

/-! The data port (R249 to R253). -/

/-- The sprite-mirror rule, with the mirrors as a list (R252). -/
theorem paletteIndex_eq (a : Addr) : paletteIndex a =
    if a.toNat % 32 ∈ [0x10, 0x14, 0x18, 0x1C] then a.toNat % 32 - 0x10 else a.toNat % 32 := by
  simp [paletteIndex]

theorem ntRemap_eq (m : Mirroring) (off : Nat) : ntRemap m off = if m = .horizontal then off % 0x800 else off := by
  cases m <;> rfl

theorem Ppu.stepVramAddr_eq (q : Ppu) : q.stepVramAddr = { q with
    vramAddr := BitVec.ofNat 16 (q.vramAddr.toNat + if q.ctrl.getLsbD 2 then 32 else 1) } := by
  rw [Ppu.stepVramAddr, BitVec.ofNat_add, BitVec.ofNat_toNat, BitVec.setWidth_eq]
  cases q.ctrl.getLsbD 2 <;> rfl

theorem Ppu.storeData_nametable {q : Ppu} {off : Nat} (m : Mirroring) (v : Byte)
    (h : vramTarget q.vramAddr = .nametable off) : q.storeData m v = { q with
      vram := q.vram.write (if m = .horizontal then off % 0x800 else off) v } := by
  rw [Ppu.storeData, h, ← ntRemap_eq]

/-- The data port stores the byte in one of the three memories, by the latched address, and then steps the address. -/
theorem busWrite_dataPort {a : Addr} {v : Byte} {s : State} {vram palette chr : Memory} (h : onPort a 7)
    (hvalid : s.ppu.vramAddr.toNat < 0x3F00 ∨ v.toNat ≤ 0x3F)
    (hstore : s.ppu.storeData s.cart.mirroring v = { s.ppu with vram := vram, palette := palette, chr := chr }) :
    busWrite a v s = .next { s with ppu := { s.ppu with
      vram := vram, palette := palette, chr := chr
      vramAddr := BitVec.ofNat 16 (s.ppu.vramAddr.toNat + if s.ppu.ctrl.getLsbD 2 then 32 else 1) } } := by
  have hlegal : invalidPaletteByte s.ppu.vramAddr v = false := by
    rw [invalidPaletteByte, decide_eq_false_iff_not]
    omega
  rw [busWrite_onPort (p := .data) v s h, ppuWrite_of_valid fun _ => hlegal, Ppu.writePort, hstore, Ppu.stepVramAddr_eq]
  rfl

/-- Settles O20: the ranges of the latched address are the rows of the routing, and each row stores in one memory. -/
theorem dataPortRoutes : Obligations.DataPortRoutes := by
  intro a v s h h' hk w stepped remap i
  have hport : onPort a 7 := ⟨h, h', hk⟩
  refine ⟨fun hw hv => ?invalid, fun hw hv => ?palette, fun hw hw' => ?mirror,
    fun hw hw' => ?nametable, fun hw => ?pattern⟩
  case invalid =>
    rw [busWrite_onPort (p := .data) v s hport]
    exact if_pos ⟨rfl, decide_eq_true ⟨hw, hv⟩⟩
  case palette =>
    have htarget : vramTarget s.ppu.vramAddr = .palette i := by rw [vramTarget, if_pos hw, paletteIndex_eq]
    exact busWrite_dataPort hport (.inr hv) (by rw [Ppu.storeData, htarget])
  case mirror =>
    have htarget : vramTarget s.ppu.vramAddr = .nametable (w - 0x3000) := by
      rw [vramTarget, if_neg (by omega), if_pos hw]
    exact busWrite_dataPort hport (.inl hw') (Ppu.storeData_nametable _ v htarget)
  case nametable =>
    have htarget : vramTarget s.ppu.vramAddr = .nametable (w - 0x2000) := by
      rw [vramTarget, if_neg (by omega), if_neg (by omega), if_pos hw]
    exact busWrite_dataPort hport (.inl (by omega)) (Ppu.storeData_nametable _ v htarget)
  case pattern =>
    have htarget : vramTarget s.ppu.vramAddr = .pattern w := by
      rw [vramTarget, if_neg (by omega), if_neg (by omega), if_neg (by omega)]
    exact busWrite_dataPort hport (.inl (by omega)) (by rw [Ppu.storeData, htarget])

/-! The status port and the other reads (R255 to R259). -/

/-- Vblank is bit 7 of the status register, and a read clears it alone (R255). -/
theorem getLsbD_clearVblank (v : Byte) (i : Nat) : (v &&& 0x7F).getLsbD i = (v.getLsbD i && decide (i < 7)) := by
  have hmask : (0x7F : Byte).getLsbD i = decide (i < 7) := Nat.testBit_two_pow_sub_one 7 i
  rw [BitVec.getLsbD_and, hmask]

theorem toNat_clearVblank (v : Byte) : (v &&& 0x7F).toNat = v.toNat % 128 := by
  rw [BitVec.toNat_and]
  exact Nat.and_two_pow_sub_one_eq_mod v.toNat 7

/-- Settles O21: the status is read as it was, and then masked. -/
theorem statusReadClears : Obligations.StatusReadClears := by
  intro a s h h' hk
  have hread (t : State) : busRead a t = .next (t.ppu.status, t.setPpu t.ppu.afterStatusRead) :=
    busRead_onPort (p := .status) t ⟨h, h', hk⟩
  refine ⟨_, hread s, rfl, toNat_clearVblank _, ?_, _, hread _, ?_⟩
  · exact (getLsbD_clearVblank _ 6).trans (Bool.and_true _)
  · exact (getLsbD_clearVblank _ 7).trans (Bool.and_false _)

/-- The write-only ports answer an open byte, drawn whatever the registers hold (R258). -/
theorem ppuRead_open {p : Port} (a : Addr) (s : State) (h : p.number ∈ [0, 1, 3, 5, 6]) :
    ppuRead p a s = .next (Config.openPort s.draws, s.drawn) := by
  cases p with
  | ctrl | mask | oamAddr | scroll | vramAddr => rfl
  | status | oamData | data => simp [Port.number] at h

/-- Settles O22: port by port; the open byte depends on the count of draws alone. -/
theorem portReadsAnswer : Obligations.PortReadsAnswer := by
  intro a s h h'
  refine ⟨fun hk => ?oamData, fun hk => ⟨Config.openPort s.draws, fun q => ?openPorts⟩, fun hk => ?data⟩
  case oamData => exact busRead_onPort (p := .oamData) s ⟨h, h', hk⟩
  case openPorts =>
    rw [busRead_port _ h h', ppuRead_open a _ (by rwa [portOf_number])]
    rfl
  case data => exact busRead_onPort (p := .data) s ⟨h, h', hk⟩

/-! A read-modify-write of a port (R257). -/

/-- INC is the read of its address, the write of the byte plus 1 in the state the read leaves, and N and Z of it. -/
theorem exec_inc {m : AddrMode} {s u t : State} {v : Byte} (hread : busRead (effAddr m s) s = .next (v, u))
    (hwrite : busWrite (effAddr m s) (v + 1) u = .next t) :
    exec (.inc m) s = .next { t with p := t.p.ofResult (v + 1) } := by
  simp only [exec, execInc, modifyMem, readMem, hread, hwrite, id, Res.andThen_next, State.setNZ_eq_ofResult]

/-- Settles O23: the read of the port, and then its write in the state that the read leaves. -/
theorem incOfPortReadsThenWrites : Obligations.IncOfPortReadsThenWrites := by
  refine fun a s h h' => ⟨fun hk => ?oamData, fun hk => ?status⟩
  case oamData =>
    exact exec_inc (m := .abs a) (busRead_onPort (p := .oamData) s ⟨h, h', hk⟩)
      (busWrite_registerPort (p := .oamData) _ s nofun ⟨h, h', hk⟩)
  case status =>
    have hstatus : s.ppu.status &&& 0x7F = BitVec.ofNat 8 (s.ppu.status.toNat % 128) := by
      rw [← toNat_clearVblank, BitVec.ofNat_toNat, BitVec.setWidth_eq]
    rw [← hstatus]
    exact exec_inc (m := .abs a) (busRead_onPort (p := .status) s ⟨h, h', hk⟩)
      (busWrite_registerPort (p := .status) _ _ nofun ⟨h, h', hk⟩)

end Sys2Proof.Machine

/-! The records the PPU builds: patterns, sprites and the palette snapshot (48_ppu_rendering R282, R283, R287). -/

namespace Sys2Proof.Machine

theorem toNat_ofBool_append (hi lo : Bool) :
    (BitVec.ofBool hi ++ BitVec.ofBool lo : BitVec 2).toNat = lo.toNat + 2 * hi.toNat := by
  cases hi <;> cases lo <;> rfl

/-- A pixel is the two bits of its column, plane 0 the low one (R282). -/
theorem toNat_pixelAt (chr : Memory) (base y x : Nat) : (pixelAt chr base y x).toNat =
    (chr.read (base + y)).toNat / 2 ^ (7 - x) % 2 + 2 * ((chr.read (base + 8 + y)).toNat / 2 ^ (7 - x) % 2) := by
  rw [pixelAt, toNat_ofBool_append, BitVec.getLsbD, BitVec.getLsbD, Nat.toNat_testBit, Nat.toNat_testBit]

/-- What a list made by index holds at an index inside it. -/
theorem getElem?_map_range {α : Type} (f : Nat → α) {i n : Nat} (h : i < n) :
    ((List.range n).map f)[i]? = some (f i) := by
  rw [List.getElem?_map, List.getElem?_range h, Option.map_some]

/-- Settles O30: rows and columns are numbered, and each pixel is the two bits of its place. -/
theorem patternPixels : Obligations.PatternPixels := by
  refine fun chr base => ⟨by simp [pattern], fun y hy => ⟨_, getElem?_map_range _ hy, by simp, fun x hx => ?_⟩⟩
  exact ⟨_, getElem?_map_range _ hx, toNat_pixelAt chr base y x⟩

/-- Settles O31: each record is the evaluation of its four bytes, and a byte less 8 lies between -8 and 247. -/
theorem spritesEvaluated : Obligations.SpritesEvaluated := by
  refine fun oam chr ctrl => ⟨by simp [evaluateSprites], fun i hi => ?_⟩
  refine ⟨_, getElem?_map_range _ hi, rfl, rfl, rfl, rfl, ?_⟩
  have hy := (Memory.read oam (4 * i)).isLt
  simp only [evaluateSprite]
  omega

/-- The two mirror rules by the entry's place in its row of four (R287). -/
theorem snapshotIndex_eq : ∀ i < 32,
    snapshotIndex i = if i % 4 = 0 ∧ 0x10 ≤ i then i - 0x10 else if i % 4 = 0 then 0x00 else i := by
  decide

/-- Settles O32: each entry is the one that the mirror rules show. -/
theorem paletteSnapshotMirrors : Obligations.PaletteSnapshotMirrors := by
  refine fun palette => ⟨by simp [paletteSnapshot], fun i hi => ?_⟩
  rw [← snapshotIndex_eq i hi]
  exact getElem?_map_range _ hi

end Sys2Proof.Machine

/-! A scanline advance: what it is on each range of scanlines, and what it does to the status bits, the NMI, the frame and
the background (48_ppu_rendering R271 to R281). -/

namespace Sys2Proof.Machine

/-! The hit step and the row step. -/

theorem sprite0HitStep_never {s : State} (h : s.env.sprite0Hit = .never) : sprite0HitStep s = s := by
  rw [sprite0HitStep, h]

/-- Under `any` the hit bit is drawn on scanlines 1 to 240 (R278). -/
theorem sprite0HitStep_any {s : State} (h : s.env.sprite0Hit = .any) (h1 : 1 ≤ s.ppu.scanline)
    (h240 : s.ppu.scanline ≤ 240) : sprite0HitStep s = (s.setPpu (s.ppu.withHit (hitBit s.draws))).drawn := by
  simp [sprite0HitStep, h, h1, h240]

/-- Past scanline 240 no hit is drawn and no row is built. -/
theorem rowStep_sprite0HitStep_past {s : State} (h : 240 < s.ppu.scanline) : rowStep (sprite0HitStep s) = s := by
  have hhit : sprite0HitStep s = s := by
    obtain e | ⟨_, h240, _⟩ := sprite0HitStep_cases s
    · exact e
    · omega
  have hrow : s.ppu.rowDue = false := by
    rw [Ppu.rowDue, decide_eq_false_iff_not]
    omega
  rw [hhit, rowStep, hrow]
  rfl

/-! A scanline advance, range by range: to a visible scanline, to scanline 241, from there on, and the wrap. -/

@[simp] theorem Ppu.nextScanline_scanline (q : Ppu) : q.nextScanline.scanline = q.scanline + 1 := rfl

@[simp] theorem Ppu.nextScanline_status (q : Ppu) : q.nextScanline.status = q.status := by rw [Ppu.nextScanline]

@[simp] theorem Ppu.nextScanline_ctrl (q : Ppu) : q.nextScanline.ctrl = q.ctrl := by rw [Ppu.nextScanline]

@[simp] theorem Ppu.nextScanline_background (q : Ppu) : q.nextScanline.background = q.background := by
  rw [Ppu.nextScanline]

theorem scanlineAdvance_visible {s : State} (h : s.ppu.scanline < 240) :
    scanlineAdvance s = rowStep (sprite0HitStep (s.setPpu s.ppu.nextScanline)) := by
  have hline : (rowStep (sprite0HitStep (s.setPpu s.ppu.nextScanline))).ppu.scanline = s.ppu.scanline + 1 :=
    (rowStep_sprite0HitStep_counters _).2
  rw [scanlineAdvance, scanlineEvents, boundaryStep, hline, if_neg (by omega), if_neg (by omega)]

/-- From scanline 240 on only the boundary step is left. -/
theorem scanlineAdvance_past {s : State} (h : 240 ≤ s.ppu.scanline) :
    scanlineAdvance s = boundaryStep (s.setPpu s.ppu.nextScanline) := by
  have hline : 240 < (s.setPpu s.ppu.nextScanline).ppu.scanline := Nat.lt_succ_of_le h
  rw [scanlineAdvance, scanlineEvents, rowStep_sprite0HitStep_past hline]

theorem scanlineAdvance_vblank {s : State} (h : s.ppu.scanline = 240) :
    scanlineAdvance s = vblankStart (s.setPpu s.ppu.nextScanline) := by
  rw [scanlineAdvance_past h.ge, boundaryStep, State.setPpu_ppu, Ppu.nextScanline, h]
  rfl

theorem scanlineAdvance_idle {s : State} (h : 240 < s.ppu.scanline) (hwrap : s.ppu.scanline ≠ 261) :
    scanlineAdvance s = s.setPpu s.ppu.nextScanline := by
  have hline : (s.setPpu s.ppu.nextScanline).ppu.scanline = s.ppu.scanline + 1 := rfl
  rw [scanlineAdvance_past h.le, boundaryStep, hline, if_neg (by omega), if_neg (by omega)]

theorem scanlineAdvance_wrap {s : State} (h : s.ppu.scanline = 261) :
    scanlineAdvance s = frameWrap (s.setPpu s.ppu.nextScanline) := by
  rw [scanlineAdvance_past (by omega), boundaryStep, State.setPpu_ppu, Ppu.nextScanline, h]
  rfl

/-! The status bits, the NMI and the draws through the parts. -/

/-- A hit is bit 6 of the status register and no other bit (10_state R43). -/
theorem getLsbD_hitBit (d i : Nat) : (hitBit d).getLsbD i = (Config.sprite0Hit d && decide (6 = i)) := by
  rw [hitBit]
  cases Config.sprite0Hit d with
  | false => exact BitVec.getLsbD_zero
  | true => exact BitVec.getLsbD_twoPow 6 i

theorem getLsbD_withHit (q : Ppu) (d i : Nat) : (q.withHit (hitBit d)).status.getLsbD i =
    (q.status.getLsbD i || Config.sprite0Hit d && decide (6 = i)) := by
  rw [Ppu.withHit, BitVec.getLsbD_or, getLsbD_hitBit]

/-- The hit step writes no status bit but bit 6. -/
theorem sprite0HitStep_status {i : Nat} (hi : i ≠ 6) (s : State) :
    (sprite0HitStep s).ppu.status.getLsbD i = s.ppu.status.getLsbD i := by
  obtain e | ⟨_, _, e⟩ := sprite0HitStep_cases s <;> rw [e]
  simp [getLsbD_withHit, hi.symm]

theorem rowStep_draws (s : State) : (rowStep s).draws = s.draws := by
  obtain ⟨_, e⟩ | ⟨_, e⟩ := rowStep_cases s <;> rw [e]
  rfl

theorem vblankStart_draws (s : State) : (vblankStart s).draws = s.draws := by
  unfold vblankStart
  split <;> rfl

theorem vblankStart_nmi (s : State) : (vblankStart s).nmi = (s.nmi || s.ppu.ctrl.getLsbD 7) := by
  unfold vblankStart
  cases s.ppu.ctrl.getLsbD 7 <;> simp [assertNmi]

/-- Vblank starts with bit 7 set and the other status bits as they were. -/
theorem getLsbD_inVblank (q : Ppu) (i : Nat) :
    q.inVblank.status.getLsbD i = (q.status.getLsbD i || decide (7 = i)) := by
  have hbit : (0x80 : Byte).getLsbD i = decide (7 = i) := BitVec.getLsbD_twoPow 7 i
  rw [Ppu.inVblank, BitVec.getLsbD_or, hbit]

/-- The wrap clears vblank and sprite-0 hit, and keeps the six bits below them (R277). -/
theorem getLsbD_wrapped (q : Ppu) (i : Nat) :
    q.wrapped.status.getLsbD i = (q.status.getLsbD i && decide (i < 6)) := by
  have hmask : (0x3F : Byte).getLsbD i = decide (i < 6) := Nat.testBit_two_pow_sub_one 6 i
  rw [Ppu.wrapped, BitVec.getLsbD_and, hmask]

/-- Masking a byte with `k` ones is the remainder modulo `2 ^ k`. -/
theorem toNat_and_byteOnes (v : Byte) {m : Byte} (k : Nat) (hm : m.toNat = 2 ^ k - 1) :
    (v &&& m).toNat = v.toNat % 2 ^ k := by
  rw [BitVec.toNat_and, hm, Nat.and_two_pow_sub_one_eq_mod]

theorem and_0x3F_eq_ofNat (v : Byte) : v &&& 0x3F = BitVec.ofNat 8 (v.toNat % 64) := by
  have hmask : (v &&& 0x3F).toNat = v.toNat % 64 := toNat_and_byteOnes v 6 rfl
  rw [← hmask, BitVec.ofNat_toNat, BitVec.setWidth_eq]

theorem frameWrap_ppu (s : State) : (frameWrap s).ppu = s.ppu.wrapped := rfl

theorem frameWrap_nmi (s : State) : (frameWrap s).nmi = false := rfl

theorem frameWrap_draws (s : State) : (frameWrap s).draws = s.draws := rfl

/-! The obligations on one scanline advance. -/

/-- Settles O28: the wrap, from the counters of the scanline past the last. -/
theorem frameWrapEmits : Obligations.FrameWrapEmits := by
  intro s h
  rw [scanlineAdvance_wrap h]
  simp only [frameWrap, deassertNmi, State.setPpu, State.setNmi, State.emit, Ppu.frameRecord, Ppu.wrapped,
    Ppu.nextScanline, Config.dotsPerScanline, and_0x3F_eq_ofNat]

/-- Settles O27: the advance to scanline 241 is the start of vblank and the wrap clears; the other advances draw a hit and
build a row at most. -/
theorem vblankSetsAndClears : Obligations.VblankSetsAndClears := by
  refine fun s _ => ⟨fun h => ?vblank, fun h => ?wrap, fun h240 h261 => ?other⟩
  case vblank =>
    rw [scanlineAdvance_vblank h, vblankStart_ppu, getLsbD_inVblank, vblankStart_nmi]
    simp
  case wrap =>
    rw [scanlineAdvance_wrap h, frameWrap_ppu, getLsbD_wrapped, frameWrap_nmi]
    exact ⟨Bool.and_false _, rfl⟩
  case other =>
    by_cases hvisible : s.ppu.scanline < 240
    · rw [scanlineAdvance_visible hvisible, (rowStep_renderer _).1, sprite0HitStep_status (by decide),
        (rowStep_sprite0HitStep_nmi _).1]
      simp
    · rw [scanlineAdvance_idle (by omega) h261]
      simp

/-- Past the visible scanlines, but for the wrap, the hit bit and the background stay and nothing is drawn. -/
theorem scanlineAdvance_past_keeps {s : State} (h : 240 ≤ s.ppu.scanline) (hwrap : s.ppu.scanline ≠ 261) :
    (scanlineAdvance s).ppu.status.getLsbD 6 = s.ppu.status.getLsbD 6 ∧ (scanlineAdvance s).draws = s.draws ∧
      (scanlineAdvance s).ppu.background = s.ppu.background := by
  obtain h240 | hpast := h.eq_or_lt
  · rw [scanlineAdvance_vblank h240.symm, vblankStart_ppu, getLsbD_inVblank, vblankStart_draws]
    simp [Ppu.inVblank]
  · rw [scanlineAdvance_idle hpast hwrap]
    simp

/-- Settles O33: the draw is the hit step's, on the visible scanlines, and the wrap alone clears. -/
theorem spriteZeroHit : Obligations.SpriteZeroHit := by
  refine fun s _ => ⟨fun h => ?wrap, fun hnever h => ?never, fun hany h => ?drawn, fun _ h hwrap => ?past⟩
  case wrap =>
    rw [scanlineAdvance_wrap h, frameWrap_ppu, getLsbD_wrapped, frameWrap_draws, State.setPpu_draws]
    exact ⟨Bool.and_false _, rfl⟩
  case never =>
    by_cases hvisible : s.ppu.scanline < 240
    · rw [scanlineAdvance_visible hvisible, sprite0HitStep_never (by simpa using hnever), (rowStep_renderer _).1,
        rowStep_draws]
      simp
    · obtain ⟨hhit, hdraws, -⟩ := scanlineAdvance_past_keeps (by omega) h
      exact ⟨hhit, hdraws⟩
  case drawn =>
    rw [scanlineAdvance_visible h, sprite0HitStep_any (by simpa using hany) (by simp) (by simpa using h),
      (rowStep_renderer _).1, rowStep_draws, State.drawn_ppu, State.setPpu_ppu, getLsbD_withHit]
    simp
  case past =>
    obtain ⟨hhit, hdraws, -⟩ := scanlineAdvance_past_keeps h hwrap
    exact ⟨hhit, hdraws⟩

/-! Background rows. -/

/-- The two bits of a block in the byte of its area (R280). -/
theorem toNat_blockBits (v : Byte) (block : Nat) :
    ((v >>> (2 * block)).setWidth 2).toNat = v.toNat / 4 ^ block % 4 := by
  rw [BitVec.toNat_setWidth, BitVec.toNat_ushiftRight, Nat.shiftRight_eq_div_pow, Nat.pow_mul]

/-- A tile is made of what no part of the renderer changes. -/
theorem RenderKeeps.tileAt {s t : State} (h : RenderKeeps s t) (m : Mirroring) (r c : Nat) :
    t.ppu.tileAt m r c = s.ppu.tileAt m r c := by
  rw [h]
  rfl

/-- A tile in plain numbers: its bytes are those that the scroll and the base nametable select through the mirroring
(R280, R281). -/
theorem Ppu.tileAt_spec (m : Mirroring) (q : Ppu) (r c : Nat) :
    let tx := (q.scrollX.toNat + q.ctrl.toNat % 4 % 2 * 256) / 8 + c
    let ty := (q.scrollY.toNat + q.ctrl.toNat % 4 / 2 * 240) / 8 + r
    let table := (tx / 32 % 2 + 2 * (ty / 30 % 2)) * 0x400
    let remap := fun off => if m = .horizontal then off % 0x800 else off
    let id := q.vram.read (remap (table + ty % 30 * 32 + tx % 32))
    let attr := q.vram.read (remap (table + 0x3C0 + ty % 30 / 4 * 8 + tx % 32 / 4))
    (q.tileAt m r c).pixels = pattern q.chr ((if q.ctrl.getLsbD 4 then 0x1000 else 0) + 16 * id.toNat) ∧
    (q.tileAt m r c).paletteId.toNat =
      attr.toNat / 4 ^ (tx % 32 % 4 / 2 + 2 * (ty % 30 % 4 / 2)) % 4 ∧
    (q.tileAt m r c).scrollX = q.scrollX ∧ (q.tileAt m r c).scrollY = q.scrollY := by
  have hbase : (q.ctrl &&& 3).toNat = q.ctrl.toNat % 4 := toNat_and_byteOnes q.ctrl 2 rfl
  simp only [Ppu.tileAt, toNat_blockBits, hbase, ntRemap_eq, patternTable, and_self]

theorem sprite0HitStep_scanline (s : State) : (sprite0HitStep s).ppu.scanline = s.ppu.scanline := by
  obtain e | ⟨_, _, e⟩ := sprite0HitStep_cases s <;> rw [e]
  rfl

theorem sprite0HitStep_background (s : State) : (sprite0HitStep s).ppu.background = s.ppu.background := by
  obtain e | ⟨_, _, e⟩ := sprite0HitStep_cases s <;> rw [e]
  rfl

theorem nextScanline_keeps (s : State) : RenderKeeps s (s.setPpu s.ppu.nextScanline) := by
  simp only [RenderKeeps, State.setPpu, Ppu.nextScanline]

/-- When the scanline that is entered builds a row (R279). -/
def Ppu.entersRow (q : Ppu) : Prop := (q.scanline + 1) % 8 = 0 ∧ q.scanline + 1 ≤ 240 ∧ q.scrollY.toNat ≤ 240

/-- The background after an advance to a visible scanline: one row more where it is due, made of the PPU as it was. -/
theorem scanlineAdvance_background_visible {s : State} (h : s.ppu.scanline < 240) :
    (s.ppu.entersRow → (scanlineAdvance s).ppu.background = s.ppu.background ++
      (List.range 32).map (s.ppu.tileAt s.cart.mirroring ((s.ppu.scanline + 1) / 8 - 1))) ∧
    (¬ s.ppu.entersRow → (scanlineAdvance s).ppu.background = s.ppu.background) := by
  have hkeeps := (nextScanline_keeps s).trans (sprite0HitStep_keeps _)
  have hline := sprite0HitStep_scanline (s.setPpu s.ppu.nextScanline)
  have hback := sprite0HitStep_background (s.setPpu s.ppu.nextScanline)
  rw [State.setPpu_ppu, Ppu.nextScanline_scanline] at hline
  rw [State.setPpu_ppu, Ppu.nextScanline_background] at hback
  rw [scanlineAdvance_visible h]
  generalize sprite0HitStep (s.setPpu s.ppu.nextScanline) = u at hkeeps hline hback ⊢
  have hcart : u.cart = s.cart := by rw [hkeeps]
  have hscroll : u.ppu.scrollY = s.ppu.scrollY := by rw [hkeeps]
  have hdue : u.ppu.rowDue = true ↔ s.ppu.entersRow := by
    rw [Ppu.rowDue, decide_eq_true_iff, hline, hscroll, Ppu.entersRow]
    tauto
  have htiles : u.ppu.tileAt s.cart.mirroring ((s.ppu.scanline + 1) / 8 - 1) =
      s.ppu.tileAt s.cart.mirroring ((s.ppu.scanline + 1) / 8 - 1) := funext (hkeeps.tileAt _ _)
  obtain ⟨hno, e⟩ | ⟨hyes, e⟩ := rowStep_cases u <;> rw [e]
  · exact ⟨fun hrow => absurd (hdue.2 hrow) (by simp [hno]), fun _ => hback⟩
  · refine ⟨fun _ => ?_, fun hrow => absurd (hdue.1 hyes) hrow⟩
    rw [State.setPpu_ppu, Ppu.buildRow, hcart, hline, htiles, hback]

/-- Settles O29: a row is due on visible scanlines only, and its tiles are numbered. -/
theorem rowAppendsTiles : Obligations.RowAppendsTiles := by
  intro s h
  split
  · next hrow =>
    obtain ⟨happends, -⟩ := scanlineAdvance_background_visible (s := s) (by omega)
    refine ⟨_, by simp, happends hrow, fun c tile htile => ?_⟩
    obtain ⟨hc, rfl⟩ := List.getElem?_eq_some_iff.1 htile
    rw [List.getElem_map, List.getElem_range]
    exact s.ppu.tileAt_spec s.cart.mirroring _ c
  · next hrow =>
    by_cases hvisible : s.ppu.scanline < 240
    · obtain ⟨-, hkeeps⟩ := scanlineAdvance_background_visible hvisible
      exact hkeeps hrow
    · obtain ⟨-, -, hkeeps⟩ := scanlineAdvance_past_keeps (s := s) (by omega) (by omega)
      exact hkeeps

end Sys2Proof.Machine

/-! The PPU's position (48_ppu_rendering R274). -/

namespace Sys2Proof.Machine

/-- With fuel enough, the loop takes the whole scanlines out of the dots and counts them, modulo 262. -/
theorem ppuLoop_position : ∀ (fuel : Nat) (s : State), s.ppu.cycle < 341 * (fuel + 1) → s.ppu.scanline < 262 →
    (ppuLoop fuel s).ppu.cycle = s.ppu.cycle % 341 ∧
      (ppuLoop fuel s).ppu.scanline = (s.ppu.scanline + s.ppu.cycle / 341) % 262
  | 0, s, hcyc, hline => by
    rw [ppuLoop]
    omega
  | fuel + 1, s, hcyc, hline => by
    rw [ppuLoop, Config.dotsPerScanline]
    split
    · obtain ⟨hc, hl⟩ := scanlineAdvance_counters s
      obtain ⟨hc', hl'⟩ := ppuLoop_position fuel (scanlineAdvance s) (by omega) (by split at hl <;> omega)
      rw [hc', hl', hc, hl]
      split <;> omega
    · omega

/-- `PPU.run` moves the position by its dots. -/
theorem ppuRun_position (n : Nat) {s : State} (h : s.ppu.scanline < 262) :
    (ppuRun n s).ppu.cycle = (s.ppu.cycle + n) % 341 ∧
      (ppuRun n s).ppu.scanline = (s.ppu.scanline + (s.ppu.cycle + n) / 341) % 262 := by
  refine ppuLoop_position _ (s.setPpu { s.ppu with cycle := s.ppu.cycle + n }) ?_ h
  show s.ppu.cycle + n < 341 * ((s.ppu.cycle + n) / 341 + 1)
  omega

/-- Settles O26: `PPU.run` adds its dots to a position that is the remainder of the dots so far. -/
theorem ppuPositionCountsDots : Obligations.PpuPositionCountsDots := by
  refine ⟨fun _ => ⟨rfl, rfl⟩, fun T n s hcyc hline => ?_, by norm_num, by norm_num⟩
  obtain ⟨hc, hl⟩ := ppuRun_position n (s := s) (by omega)
  rw [hc, hl]
  omega

end Sys2Proof.Machine

/-! The DMA unit (49_dma_sequencer R300 to R305). -/

namespace Sys2Proof.Machine

theorem busWrite_dmaTrigger (v : Byte) (s : State) :
    busWrite 0x4014 v s = .next { s with dmaPage := v, dmaPending := true } := rfl

/-- Settles O24: the trigger is one bus write, which records the page. -/
theorem dmaTriggerDefers : Obligations.DmaTriggerDefers :=
  ⟨busWrite_dmaTrigger, fun s => ⟨(exec_sta (.abs 0x4014) s).trans (busWrite_dmaTrigger s.a s), rfl⟩,
    fun v w s => by rw [busWrite_dmaTrigger, Res.andThen_next, busWrite_dmaTrigger]⟩

/-- A transfer leaves the positions before it alone. -/
theorem Ppu.transferFrom_read_before : ∀ (vs : List Byte) (q : Ppu) {i j : Nat}, j < i →
    (q.transferFrom i vs).oam.read j = q.oam.read j
  | [], _, _, _, _ => rfl
  | v :: vs, q, i, j, h => by
    rw [Ppu.transferFrom, Ppu.transferFrom_read_before vs _ (by omega)]
    exact Memory.read_write_ne (by omega)

/-- A transfer that stays inside sprite RAM puts its bytes there in order. -/
theorem Ppu.transferFrom_read : ∀ (vs : List Byte) (q : Ppu) (i k : Nat), i + vs.length ≤ 256 →
    q.oam.wf 256 = true → (hk : k < vs.length) → (q.transferFrom i vs).oam.read (i + k) = vs[k]
  | v :: vs, q, i, 0, hlen, hwf, _ => by
    rw [Ppu.transferFrom, Ppu.transferFrom_read_before vs _ (by omega)]
    exact Memory.read_write_same hwf
  | v :: vs, q, i, k + 1, hlen, hwf, hk => by
    rw [List.length_cons] at hlen hk
    have hstored : (q.transferSprite i v).oam.wf 256 = true := Memory.write_wf (by omega) hwf
    have h := Ppu.transferFrom_read vs (q.transferSprite i v) (i + 1) k (by omega) hstored (by omega)
    rw [Nat.add_right_comm] at h
    exact h

/-- Settles O25: the transfer from position 0 puts the page's byte `i` at position `i`, and writes sprite RAM alone. -/
theorem dmaCopiesPage : Obligations.DmaCopiesPage := by
  refine fun s => ⟨fun hpage hwf => ?_, dmaRun_outsideRam⟩
  have hlen := pageBytes_length s.ram s.dmaPage
  have hbyte : ∀ i (hi : i < (pageBytes s.ram s.dmaPage).length),
      (pageBytes s.ram s.dmaPage)[i] = s.ram.read (s.dmaPage.toNat * 256 + i) := by simp [pageBytes]
  rw [dmaRun, if_neg (by omega)]
  generalize pageBytes s.ram s.dmaPage = vs at hlen hbyte ⊢
  refine ⟨_, rfl, ?_, fun i hi => ?_⟩
  · rw [Ppu.transferFrom_eq]
    rfl
  · rw [← hbyte i (by omega)]
    have h := Ppu.transferFrom_read vs s.ppu 0 i (by omega) hwf (by omega)
    rwa [Nat.zero_add] at h

end Sys2Proof.Machine

/-! What a step charges (49_dma_sequencer R305, R306). -/

namespace Sys2Proof.Machine

/-- The part of a step before the fetch is charged the DMA stall where a copy was pending, and nothing otherwise. -/
theorem beginStep_cycles {s t : State} (h : beginStep s = .next t) :
    t.cycles = if s.dmaPending = true then s.env.timing.dmaStall else 0 := by
  obtain ⟨hpending, -, henv⟩ := environmentMove_kept s
  rw [beginStep] at h
  split at h
  · cases h
  · obtain ⟨u, hdma, ht⟩ := Res.andThen_eq_next.1 h
    cases ht
    rw [pollInterrupts_cycles, ← hpending, ← henv]
    cases hp : (environmentMove s).dmaPending with
    | false =>
      rw [dmaStep_idle hp] at hdma
      cases hdma
      rfl
    | true =>
      rw [dmaStep_pending hp] at hdma
      obtain ⟨w, -, hu⟩ := Res.andThen_eq_next.1 hdma
      cases hu
      rfl

/-- What a step counts is what it was charged before the fetch and the count of its instruction. -/
theorem endStep_cycles (i : Instr) (before after : State) :
    (endStep i before after).cycles = before.cycles + cyclesOf i before := by
  rw [endStep, ppuRun_keeps]
  rfl

/-- A step moves the position by three dots for each cycle that it counts. -/
theorem endStep_position (i : Instr) (before : State) {s u : State} (hout : CpuOutput s u)
    (hline : s.ppu.scanline < 262) :
    (endStep i before u).ppu.cycle = (s.ppu.cycle + 3 * (endStep i before u).cycles) % 341 ∧
      (endStep i before u).ppu.scanline =
        (s.ppu.scanline + (s.ppu.cycle + 3 * (endStep i before u).cycles) / 341) % 262 := by
  have hlt : u.ppu.scanline < 262 := hout.scanline.trans_lt hline
  rw [endStep_cycles, ← hout.cycle, ← hout.scanline]
  exact ppuRun_position (s := (u.setCycles _).setStepped true) _ hlt

/-- Settles O7: the CPU's part of a step leaves the position alone, and the dots fed at its end are those of the count. -/
theorem stepChargesCycles : Obligations.StepChargesCycles := by
  intro s t hstep
  obtain ⟨s1, i, s2, u, hbegin, hfetch, hexec, rfl⟩ := step_next.1 hstep
  have hclosed := CpuOutput.cpuClosed s
  have hout : CpuOutput s u :=
    hclosed.exec hexec (hclosed.fetchInstr hfetch (hclosed.beginStep hbegin (environmentMove_output s)))
  refine ⟨⟨s1, i, s2, hbegin, hfetch, ?_⟩, fun hcyc hline => ?_, rfl⟩
  · rw [endStep_cycles, fetchInstr_cycles hfetch, beginStep_cycles hbegin]
  · obtain ⟨hc, hl⟩ := endStep_position i s2 hout hline
    omega

end Sys2Proof.Machine

/-! Interrupt entry and return, and the warm reset (60_exceptions R330 to R337, 70_reset_and_hazards R352). -/

namespace Sys2Proof.Machine

/-! What the poll and the reset do. -/

theorem pollInterrupts_nmiPending {s : State} (h : s.nmi = true) : pollInterrupts s = serviceNmi s := by
  obtain ⟨_, e⟩ | ⟨hclear, _⟩ | ⟨hclear, _⟩ := pollInterrupts_cases s
  · exact e
  all_goals exact absurd (h.symm.trans hclear) (by decide)

theorem pollInterrupts_irqPending {s : State} (hnmi : s.nmi = false) (hirq : s.irq = true) (hi : s.p.i = false) :
    pollInterrupts s = serviceIrq s := by
  simp [pollInterrupts, hnmi, hirq, hi]

theorem pollInterrupts_idle {s : State} (hnmi : s.nmi = false) (h : s.irq = false ∨ s.p.i = true) :
    pollInterrupts s = s := by
  obtain hirq | hi := h
  · simp [pollInterrupts, hnmi, hirq]
  · simp [pollInterrupts, hnmi, hi]

theorem serviceNmi_eq (s : State) : serviceNmi s =
    { takeInterrupt false s.pc Config.nmiVector s with nmi := false } := rfl

theorem serviceIrq_eq (s : State) : serviceIrq s =
    { takeInterrupt false s.pc Config.irqVector s with irq := false } := rfl

/-- Settles O10: the poll services the NMI first, whatever P.I holds. -/
theorem nmiEntersHandler : Obligations.NmiEntersHandler := fun s hwf hnmi =>
  ⟨_, entersHandler_takeInterrupt false s.pc hwf (by decide) (by decide),
    (pollInterrupts_nmiPending hnmi).trans (serviceNmi_eq s)⟩

/-- Settles O11: the poll services the IRQ where no NMI is pending and P.I is clear; an NMI entry sets P.I, so the IRQ
waits after it. -/
theorem irqEntersOrWaits : Obligations.IrqEntersOrWaits := by
  refine ⟨fun s hwf hnmi hirq hi => ?_, fun s hnmi h => pollInterrupts_idle hnmi h, fun s hnmi hirq => ?_⟩
  · exact ⟨_, entersHandler_takeInterrupt false s.pc hwf (by decide) (by decide),
      (pollInterrupts_irqPending hnmi hirq hi).trans (serviceIrq_eq s)⟩
  · rw [pollInterrupts_nmiPending hnmi, serviceNmi_eq, takeInterrupt_eq]
    exact ⟨hirq, rfl, rfl, rfl⟩

/-- The three bytes that an interrupt entry saves, whatever its vector. -/
theorem takeInterrupt_saved (brk : Bool) (ret vector : Addr) {s : State} (h : s.ram.wf 0x800 = true) :
    RamChanged s (takeInterrupt brk ret vector s)
      [(0x100 + s.sp.toNat, hiByte ret), (0x100 + (s.sp - 1).toNat, loByte ret),
       (0x100 + (s.sp - 2).toNat, Flags.toByte { s.p with b := brk })] := by
  have hram : (takeInterrupt brk ret vector s).ram = (takeInterrupt brk ret Config.irqVector s).ram := by
    simp only [takeInterrupt_eq]
  have hsaved := (entersHandler_takeInterrupt brk ret (v := Config.irqVector) h (by decide) (by decide)).saved
  rwa [RamChanged, ← hram] at hsaved

/-- An interrupt entry but for RAM: the stack pointer, P and the pc. -/
theorem takeInterrupt_eq_ram (brk : Bool) (ret vector : Addr) (s : State) : takeInterrupt brk ret vector s =
    { s with ram := (takeInterrupt brk ret vector s).ram, sp := s.sp - 3, p := { s.p with b := brk, i := true },
             pc := s.cart.vector vector } := by
  have hsp : s.sp - 1 - 1 - 1 = s.sp - 3 := by bv_omega
  rw [takeInterrupt_eq, hsp]

/-- Pulling the status that the entry pushed gives the flags back, but for the stored break flag. -/
theorem pulled_toByte {p : Flags} (brk : Bool) (h : p.r = true) :
    Flags.pulled { p with b := brk, i := true } (Flags.toByte { p with b := brk }) = { p with b := brk } := by
  rw [Flags.pulled, Flags.ofByte_toByte, ← h]

/-- Settles O14: the three pulls of RTI find the three bytes that the entry saved. -/
theorem rtiUndoesEntry : Obligations.RtiUndoesEntry := by
  intro s brk ret vector hwf hr
  obtain ⟨hsaved, -⟩ := takeInterrupt_saved brk ret vector hwf
  have hhi := hsaved _ (.head _)
  have hlo := hsaved _ (.tail _ (.head _))
  have hst := hsaved _ (.tail _ (.tail _ (.head _)))
  have h1 : s.sp - 3 + 1 = s.sp - 2 := by bv_omega
  have h2 : s.sp - 2 + 1 = s.sp - 1 := by bv_omega
  have h3 : s.sp - 1 + 1 = s.sp := by bv_omega
  refine congrArg Host.Outcome.next ((returnFromInterrupt_eq _).trans ?_)
  rw [takeInterrupt_eq_ram]
  dsimp only at hhi hlo hst ⊢
  rw [h1, h2, h3, hhi, hlo, hst, pulled_toByte brk hr, joinBytes_split]

/-- Settles O9: P and the pc are written, the pc with the word at the reset vector. -/
theorem warmResetWritesTwo : Obligations.WarmResetWritesTwo := by
  refine ⟨fun s => ⟨readsWord_vector s (v := Config.resetVector) (by decide) (by decide), rfl⟩, fun s hp0 => ?_⟩
  have hp : (cpuReset s).p = State.reset.env.p0 := hp0
  rw [hp]
  rfl

end Sys2Proof.Machine

/-! The fault mark, and the accesses that do not answer (60_exceptions R320 to R326). -/

namespace Sys2Proof.Machine

/-! The mark. -/

theorem step_of_begin_fault {s : State} {f : Fault} (h : beginStep s = .fault f) : step s = .fault f := by
  rw [step, h, Res.andThen_fault]

theorem beginStep_marked {s : State} {f : Fault} (h : s.faulted = some f) : beginStep s = .fault f := by
  simp only [beginStep, h]

/-- No part of a step writes the mark. -/
theorem faulted_cpuClosed (mark : Option Fault) : CpuClosed fun s => s.faulted = mark where
  a _ _ h := h
  x _ _ h := h
  y _ _ h := h
  sp _ _ h := h
  pc _ _ h := h
  p _ _ _ h := h
  ram _ _ _ _ h := h
  drawn _ h := h
  emit _ _ _ h := h
  statusRead _ h := h
  portWrite _ _ _ _ h := h
  dmaWrite _ _ h := h
  dmaCopy _ h := by simpa using h
  nmi _ h := h
  irq _ h := h
  cycles _ _ h := h
  stepped _ h := h

theorem step_unmarked {s t : State} (h : step s = .next t) : t.faulted = none := by
  have hmark : s.faulted = none := by
    cases hf : s.faulted with
    | none => rfl
    | some f =>
      rw [step_of_begin_fault (beginStep_marked hf)] at h
      cases h
  have hmove : (environmentMove s).faulted = none := by
    rw [environmentMove_eq]
    exact hmark
  obtain ⟨n, u, hu, rfl⟩ := (faulted_cpuClosed none).step h hmove
  rw [ppuRun_keeps]
  exact hu

theorem pollInterrupts_faulted (s : State) : (pollInterrupts s).faulted = s.faulted :=
  (faulted_cpuClosed s.faulted).pollInterrupts rfl

/-! Accesses that do not answer. -/

theorem Res.andThen_assoc {α β γ : Type} (r : Res α) (f : α → Res β) (g : β → Res γ) :
    (r.andThen f).andThen g = r.andThen fun v => (f v).andThen g := by
  cases r <;> rfl

/-- Every reading instruction, and every read-modify-write, begins with the read of its effective address. -/
theorem exec_begins_with_read {m : AddrMode} {i : Instr} (hi : i ∈ readers m ++ modifiers m) (s : State) :
    ∃ k, exec i s = (busRead (effAddr m s) s).andThen k := by
  obtain hi | hi := List.mem_append.1 hi
  · fin_cases hi <;> exact ⟨_, rfl⟩
  · fin_cases hi <;> exact ⟨_, Res.andThen_assoc _ _ _⟩

theorem stopsOnRead_of_begins {i : Instr} {m : AddrMode} {s : State} (hread : readable (effAddr m s) = false)
    (hexec : ∃ k, exec i s = (busRead (effAddr m s) s).andThen k) : StopsOnRead i m s := by
  obtain ⟨k, hexec⟩ := hexec
  obtain h | h := busRead_fault s hread
  · exact ⟨_, .head _, h, by rw [hexec, h, Res.andThen_fault]⟩
  · exact ⟨_, .tail _ (.head _), h, by rw [hexec, h, Res.andThen_fault]⟩

theorem stopsOnWrite_of_exec {i : Instr} {m : AddrMode} {v : Byte} {s : State}
    (hexec : exec i s = busWrite (effAddr m s) v s) (hwrite : writable (effAddr m s) v s = false) :
    StopsOnWrite i m v s := by
  obtain h | h := busWrite_fault hwrite
  · exact ⟨_, .head _, h, hexec.trans h⟩
  · exact ⟨_, .tail _ (.head _), h, hexec.trans h⟩

/-- A read that does not answer faults. -/
theorem exists_busRead_fault {a : Addr} (s : State) (h : readable a = false) : ∃ f, busRead a s = .fault f := by
  obtain h | h := busRead_fault s h <;> exact ⟨_, h⟩

/-- An indirect jump stops with the fault of the first read of its pointer that does not answer. -/
theorem exec_jmp_ind_fault {w : Addr} (s : State) (h : jumpReadable (.ind w) = false) :
    ∃ f, exec (.jmp (.ind w)) s = .fault f ∧
      (busRead w s = .fault f ∨ ∃ lo s1, busRead w s = .next (lo, s1) ∧
        busRead (joinBytes (hiByte w) (loByte w + 1)) s1 = .fault f) := by
  cases hlo : readable w with
  | false =>
    obtain ⟨f, hf⟩ := exists_busRead_fault s hlo
    exact ⟨f, by simp only [exec, execJmp, jumpTarget, readPageWrap16, hf, Res.andThen_fault], .inl hf⟩
  | true =>
    obtain ⟨lo, s1, hread⟩ := (busRead_readable w s).1 hlo
    obtain ⟨f, hf⟩ := exists_busRead_fault s1 (a := joinBytes (hiByte w) (loByte w + 1)) (by
      simpa [jumpReadable, hlo] using h)
    exact ⟨f, by simp only [exec, execJmp, jumpTarget, readPageWrap16, hread, hf, Res.andThen_next,
      Res.andThen_fault], .inr ⟨lo, s1, hread, hf⟩⟩

/-- Settles O6: the mark is read at the start of a step and written by none of its parts; an instruction that begins with
an access that does not answer ends with that access's fault. -/
theorem faultMarkStops : Obligations.FaultMarkStops := by
  refine ⟨fun s f h => ?mark, fun s t => step_unmarked, fun s => ⟨rfl, pollInterrupts_faulted s⟩,
    fun s hmark hdma hpage => ?dma, fun m s h i hi => ?read, fun m v v' s s1 h => ?modify,
    fun m s e he h => ?write, fun w s h => ?jump⟩
  case mark => exact step_of_begin_fault (beginStep_marked h)
  case dma =>
    obtain ⟨-, -, -, -, hbegin, -⟩ := stepRunsDecoded
    obtain ⟨-, -, houtside⟩ := hbegin s hmark
    exact step_of_begin_fault (houtside hdma hpage)
  case read => exact stopsOnRead_of_begins h (exec_begins_with_read hi s)
  case modify =>
    have hread : readable (effAddr m s) = true := (busRead_readable _ s).2 ⟨v, s1, h⟩
    exact (busWrite_writable _ v' s1).1 (writable_of_readable hread v' s1)
  case write =>
    simp only [List.mem_cons, List.not_mem_nil, or_false] at he
    obtain rfl | rfl | rfl | rfl := he
    · exact stopsOnWrite_of_exec (exec_sta m s) h
    · exact stopsOnWrite_of_exec (exec_stx m s) h
    · exact stopsOnWrite_of_exec (exec_sty m s) h
    · exact stopsOnWrite_of_exec (exec_sax m s) h
  case jump => exact joinBytes_succ_loByte w ▸ exec_jmp_ind_fault s h

end Sys2Proof.Machine
